-- ==== Sys2Proof/Word.lean ====
section
/-! DEFINITION. The data types of the block that the rest of the model is written over: bytes, the payload word,
the numeric operand, the frame kind, the six text lanes and the eight message payload bytes. -/

namespace Sys2Proof

/-- One byte of a frame, of the text, or of the accumulator (10_state.md R26, R30, R34). -/
abbrev Byte := BitVec 8

/-- The packed race-info payload word, 32 bits (10_state.md R25). -/
abbrev Word := BitVec 32

/-- The value on a numeric operand port A0..A5: OPERAND_WIDTH = 32 bits (00_scope.md R7). -/
abbrev Operand := BitVec 32

/-- The two frame kinds, KIND = RI (0) or MSG (1) (10_state.md R23). -/
inductive Kind where
  | ri
  | msg
deriving DecidableEq, Repr, Inhabited

/-- The sequencer's phase, PHASE = IDLE (0) or EMIT (1) (10_state.md R22). -/
inductive Phase where
  | idle
  | emit
deriving DecidableEq, Repr, Inhabited

/-- The six text operand lanes TXT0..TXT5, TXT0 the first character (10_state.md R30, 30_encoding.md R64). -/
structure Text where
  t0 : Byte
  t1 : Byte
  t2 : Byte
  t3 : Byte
  t4 : Byte
  t5 : Byte
deriving DecidableEq, Repr, Inhabited

/-- The race-message payload MB[0]..MB[7] (10_state.md R26): `b0` is the flags byte, `b1`..`b7` the message field. -/
structure MsgPayload where
  b0 : Byte
  b1 : Byte
  b2 : Byte
  b3 : Byte
  b4 : Byte
  b5 : Byte
  b6 : Byte
  b7 : Byte
deriving DecidableEq, Repr, Inhabited

end Sys2Proof
end

