-- ==== Sys2Proof/Syntax.lean ====
section
/-! DEFINITION. The four commands of spec/opcode_table.json as data, the input ports that carry them, and the
assembler's two notations: command lines (30_encoding.md R73) and pseudo-instructions (R74). -/

namespace Sys2Proof

/-- The commands, one constructor per row of the command map (30_encoding.md R61), each with exactly the operand
ports that R62 lists for it, in port order. -/
inductive Instr where
  /-- ENC_RI (43_race_info_commands.md R130): A0 pos, A1 lap, A2 secs, A3 hunds, A4 started, A5 chn_idx. -/
  | encRi (pos lap secs hunds started chn : Operand)
  /-- ENC_RI_SENTINEL (43_race_info_commands.md R131): no operand. -/
  | encRiSentinel
  /-- ENC_MSG (44_race_msg_commands.md R140): A0 seq_id, A1 chn_idx, the text lanes. -/
  | encMsg (seq chn : Operand) (txt : Text)
  /-- ENC_MSG_BCAST (44_race_msg_commands.md R141): A0 seq_id, the text lanes. -/
  | encMsgBcast (seq : Operand) (txt : Text)
deriving DecidableEq, Repr

/-- The command ports of one step: CMD_OP, A0..A5 and TXT0..TXT5 (10_state.md R30, 30_encoding.md R60). -/
structure CommandPorts where
  op : BitVec 2
  a0 : Operand
  a1 : Operand
  a2 : Operand
  a3 : Operand
  a4 : Operand
  a5 : Operand
  txt : Text
deriving DecidableEq, Repr, Inhabited

/-- All input ports of one step (10_state.md R30). -/
structure Inputs where
  /-- RST, the reset request. -/
  rst : Bool
  /-- CMD_VALID: the host offers a command in this step. -/
  cmdValid : Bool
  /-- CMD_OP, A0..A5, TXT0..TXT5. -/
  cmd : CommandPorts
  /-- OUT_READY: the sink accepts a byte in this step. -/
  outReady : Bool
deriving DecidableEq, Repr, Inhabited

/-- A command line of the assembler (30_encoding.md R73): numeric literals of any size and texts of any length, as
written, before the assembler has checked or cut them. -/
inductive AsmCommand where
  | encRi (pos lap secs hunds started chn : Nat)
  | encRiSentinel
  | encMsg (text : List Byte) (seq chn : Nat)
  | encMsgBcast (text : List Byte) (seq : Nat)
deriving DecidableEq, Repr

/-- A pseudo-instruction (30_encoding.md R74): a call of one of the source's two operations. -/
inductive SourceCall where
  /-- `encodeRaceInfo` with the values given, in parameter order. -/
  | encodeRaceInfo (values : List Nat)
  /-- `encodeRaceMsg(text, seq_id, chn_idx?)`; `none` when the channel is omitted. -/
  | encodeRaceMsg (text : List Byte) (seqId : Nat) (chnIdx : Option Nat)
deriving DecidableEq, Repr

end Sys2Proof
end

