-- ==== Sys2Proof/Config.lean ====
section
/-! DEFINITION. The implementation parameters of 00_scope.md R7 that a definition of the model reads, and the free
values: what the spec leaves open. A free value is an opaque constant, so no proof can know it and a theorem about it
holds whatever it is. -/

namespace Sys2Proof

/-- OPERAND_WIDTH (00_scope.md R7): the width of a numeric operand port, which bounds the assembler's literals. -/
def Config.operandWidth : Nat := 32

/-- FREE VALUE (log 1). The input ports of a step for which `State.schedule` lists none, drawn by `State.tick`: the
host's and the sink's behaviour is free in every step (10_state.md R20, 70_reset_and_hazards.md R180). -/
opaque Config.freeInputs : Nat → Inputs

/-- FREE VALUE (log 4). FrameByte at an offset of at least the frame's length, where 42_frame_wrapper.md R110 names
bits that PW does not have, or a byte that MB does not have. R110 makes FrameByte a function of the state, so the
value may depend on KIND, the offset, PW, MB and ACC. No state that keeps 10_state.md R36 reaches it. -/
opaque Config.offFrameByte : Kind → Nat → Word → MsgPayload → Byte → Byte

end Sys2Proof
end

