-- ==== Sys2Proof/Machine/State.lean ====
section
/-! DEFINITION. The state of the machine: the six elements of the block (10_state.md section 2) and, beside them, what
its environment will drive and has received; and the state after reset (R38). -/

namespace Sys2Proof.Machine

/-- The reasons a step can stop with a fault: none. 60_exceptions.md R150 and R151 give the block no exception, fault
or error indication, so this type has no constructor and nobody raises one (log 17). -/
inductive Fault where
deriving DecidableEq, Repr

/-- The reasons a step can be refused. 60_exceptions.md R151 gives the step no refusal outcome (log 17). -/
inductive Refusal where
  /-- The host's name for an instruction without a meaning. Raised by a refused arm of `exec` only, and every arm has
  a meaning, so nobody raises it. Safe. -/
  | notModelled (mnemonic : String)
deriving DecidableEq, Repr

/-- The machine: the block's state elements, and the environment's inputs still to come and outputs received. -/
structure State where
  /-- PHASE (10_state.md R22). -/
  phase : Phase
  /-- KIND (10_state.md R23). -/
  kind : Kind
  /-- IDX, the offset of the next byte of the frame (10_state.md R24). -/
  idx : BitVec 4
  /-- PW, the packed race-info payload word (10_state.md R25). -/
  pw : Word
  /-- MB[0]..MB[7], the race-message payload (10_state.md R26). -/
  mb : MsgPayload
  /-- ACC, the checksum accumulator (10_state.md R34). -/
  acc : Byte
  /-- The model's own field (log 1, 2): the input ports of the next steps, the next step's first. -/
  schedule : List Inputs
  /-- The model's own field (log 1, 2): the counter of the free value `Config.freeInputs`. -/
  tick : Nat
  /-- The model's own field (log 3): the bytes the sink has received, oldest first, the `Emit` of 00_scope.md R10. -/
  sent : List Byte
deriving DecidableEq, Repr

/-- The state after reset (10_state.md R38); the environment's three fields are the model's choice (log 2). -/
def State.reset : State where
  phase := .idle
  kind := .ri
  idx := 0#4
  pw := 0xFFFFFFFF#32
  mb := ⟨0x00#8, 0x00#8, 0x00#8, 0x00#8, 0x00#8, 0x00#8, 0x00#8, 0x00#8⟩
  acc := 0x00#8
  schedule := []
  tick := 0
  sent := []

end Sys2Proof.Machine
end

