-- ==== Sys2Proof/Machine/Constants.lean ====
section
/-! DEFINITION. The frame constants that the source fixes (30_encoding.md R65), and the two values derived from KIND
(10_state.md R27). -/

namespace Sys2Proof.Machine

/-- PREAMBLE, offset 0 of every frame (30_encoding.md R65). -/
def preamble : Byte := 0xFC#8

/-- TERMINATOR, offset L-2 of every frame (30_encoding.md R65). -/
def terminator : Byte := 0xFE#8

/-- SENTINEL_WORD = RI_SENTINEL, every bit 1 (30_encoding.md R65, 40_bitfield_packer.md R83). -/
def sentinelWord : Word := 0xFFFFFFFF#32

/-- BCAST_CHN, the broadcast channel as an operand value (30_encoding.md R65, 44_race_msg_commands.md R141). -/
def bcastChn : Operand := 0x0F#32

/-- L(KIND), the frame length (10_state.md R27). -/
def frameLength : Kind → Nat
  | .ri => 8
  | .msg => 12

/-- T(KIND), the frame-type byte (10_state.md R27). -/
def frameType : Kind → Byte
  | .ri => 0x5A#8
  | .msg => 0x5B#8

/-- The frame kind of a command (30_encoding.md R61). -/
def commandKind : Instr → Kind
  | .encRi _ _ _ _ _ _ => .ri
  | .encRiSentinel => .ri
  | .encMsg _ _ _ => .msg
  | .encMsgBcast _ _ => .msg

end Sys2Proof.Machine
end

