-- ==== Sys2Proof/Machine/Operands.lean ====
section
/-! DEFINITION. Operand forms (30_encoding.md section 2) and the indexed reads of the two payload registers and of the
text lanes. -/

namespace Sys2Proof.Machine

/-- A numeric field of width `w` of an operand port: `trunc_w(A) = A[w-1:0]`; the bits above are ignored
(30_encoding.md R63, 40_bitfield_packer.md R82). -/
def field (w : Nat) (a : Operand) : BitVec w := a.extractLsb' 0 w

/-- The text lanes in character order, TXT0 first (30_encoding.md R64). -/
def lanes (t : Text) : List Byte := [t.t0, t.t1, t.t2, t.t3, t.t4, t.t5]

/-- MB[0]..MB[7] in order (10_state.md R26). -/
def mbBytes (m : MsgPayload) : List Byte := [m.b0, m.b1, m.b2, m.b3, m.b4, m.b5, m.b6, m.b7]

/-- MB[k], for k in 0..7 (10_state.md R26). -/
def mbByte? (m : MsgPayload) (k : Nat) : Option Byte := (mbBytes m)[k]?

/-- Byte k of PW, bits 8k+7 : 8k, for k in 0..3 (20_memory.md R41). -/
def pwByte? (w : Word) (k : Nat) : Option Byte := if k < 4 then some (w.extractLsb' (8 * k) 8) else none

/-- The four bytes of PW, least significant first (20_memory.md R41). -/
def pwBytes (w : Word) : List Byte := [w.extractLsb' 0 8, w.extractLsb' 8 8, w.extractLsb' 16 8, w.extractLsb' 24 8]

end Sys2Proof.Machine
end

