-- ==== Sys2Proof/Machine/Packer.lean ====
section
/-! DEFINITION. The bit-field packer (40_bitfield_packer.md): total functions from operand values to PW and MB. -/

namespace Sys2Proof.Machine

/-- PackRI (40_bitfield_packer.md R81): six truncated fields, shifted into place and joined; PW[31:25] stays 0. -/
def packRI (a0 a1 a2 a3 a4 a5 : Operand) : Word :=
  (field 3 a0).setWidth 32
    ||| (field 4 a1).setWidth 32 <<< 3
    ||| (field 6 a2).setWidth 32 <<< 7
    ||| (field 7 a3).setWidth 32 <<< 13
    ||| (field 1 a4).setWidth 32 <<< 20
    ||| (field 4 a5).setWidth 32 <<< 21

/-- The six fields of a race-info word (40_bitfield_packer.md R84), at the widths of 30_encoding.md R67. -/
structure RaceFields where
  pos : BitVec 3
  lap : BitVec 4
  secs : BitVec 6
  hunds : BitVec 7
  started : BitVec 1
  chn : BitVec 4
deriving DecidableEq, Repr

/-- UnpackRI (40_bitfield_packer.md R84): no operation of the block; it states the round trip. -/
def unpackRI (w : Word) : RaceFields where
  pos := w.extractLsb' 0 3
  lap := w.extractLsb' 3 4
  secs := w.extractLsb' 7 6
  hunds := w.extractLsb' 13 7
  started := w.extractLsb' 20 1
  chn := w.extractLsb' 21 4

/-- PackFlags (40_bitfield_packer.md R86): seq_id at bits 2:0, chn_idx at bits 6:3, bit 7 = 0. -/
def packFlags (s c : Operand) : Byte := (field 3 s).setWidth 8 ||| (field 4 c).setWidth 8 <<< 3

/-- CopyText (40_bitfield_packer.md R87): a lane comes out as it is while no lane before it is 0x00, else as 0x00. -/
def copyText (t : Text) : Text where
  t0 := t.t0
  t1 := if t.t0 ≠ 0x00#8 then t.t1 else 0x00#8
  t2 := if t.t0 ≠ 0x00#8 ∧ t.t1 ≠ 0x00#8 then t.t2 else 0x00#8
  t3 := if t.t0 ≠ 0x00#8 ∧ t.t1 ≠ 0x00#8 ∧ t.t2 ≠ 0x00#8 then t.t3 else 0x00#8
  t4 := if t.t0 ≠ 0x00#8 ∧ t.t1 ≠ 0x00#8 ∧ t.t2 ≠ 0x00#8 ∧ t.t3 ≠ 0x00#8 then t.t4 else 0x00#8
  t5 := if t.t0 ≠ 0x00#8 ∧ t.t1 ≠ 0x00#8 ∧ t.t2 ≠ 0x00#8 ∧ t.t3 ≠ 0x00#8 ∧ t.t4 ≠ 0x00#8 then t.t5 else 0x00#8

/-- PackMB (40_bitfield_packer.md R88): the flags byte, the six copied text bytes, and 0x00 at MB[7]. -/
def packMB (s c : Operand) (t : Text) : MsgPayload :=
  let u := copyText t
  ⟨packFlags s c, u.t0, u.t1, u.t2, u.t3, u.t4, u.t5, 0x00#8⟩

end Sys2Proof.Machine
end

