-- ==== Sys2Proof/Machine/Frame.lean ====
section
/-! DEFINITION. The frame: the multiplexer FrameByte (42_frame_wrapper.md R110) over the frame offset space
(20_memory.md R40), and the closed form of a whole frame (30_encoding.md R66, R68). -/

namespace Sys2Proof.Machine

/-- The byte that the wrapper selects at offset `i` of the frame in progress (42_frame_wrapper.md R110). At an offset
of at least L(KIND), which R110's slice and index do not reach, it is a free value (log 4). -/
def frameByteAt (s : State) (i : Nat) : Byte :=
  if i = 0 then preamble
  else if i = 1 then frameType s.kind
  else if i = frameLength s.kind - 2 then terminator
  else if i = frameLength s.kind - 1 then s.acc
  else
    let free := Config.offFrameByte s.kind i s.pw s.mb s.acc
    match s.kind with
    | .ri => (pwByte? s.pw (i - 2)).getD free
    | .msg => (mbByte? s.mb (i - 2)).getD free

/-- FrameByte(S), at the current offset (42_frame_wrapper.md R110). -/
def frameByte (s : State) : Byte := frameByteAt s s.idx.toNat

/-- The payload bytes of a frame, offsets 2..L-3 (20_memory.md R47): PW for RI (R41), MB for MSG (R43). -/
def payload : Kind → Word → MsgPayload → List Byte
  | .ri, w, _ => pwBytes w
  | .msg, _, m => mbBytes m

/-- The bytes that the checksum covers, offsets 1..L-2: type, payload, terminator (41_checksum_accumulator.md R105). -/
def summedBytes (k : Kind) (w : Word) (m : MsgPayload) : List Byte := frameType k :: payload k w m ++ [terminator]

/-- The closed form of the checksum: the exact sum of the bytes, mod 256 (41_checksum_accumulator.md R105). -/
def checksum (bytes : List Byte) : Byte := BitVec.ofNat 8 (bytes.map BitVec.toNat).sum

/-- A whole frame, offsets 0..L-1 in order (30_encoding.md R66, R68). -/
def frameBytes (k : Kind) (w : Word) (m : MsgPayload) : List Byte :=
  preamble :: summedBytes k w m ++ [checksum (summedBytes k w m)]

/-- The whole frame a command produces (43_race_info_commands.md R130, R131; 44_race_msg_commands.md R140, R141), as a
function of its operands alone (20_memory.md R49). The payload that its kind does not read is the reset value here. -/
def commandFrame : Instr → List Byte
  | .encRi pos lap secs hunds started chn => frameBytes .ri (packRI pos lap secs hunds started chn) State.reset.mb
  | .encRiSentinel => frameBytes .ri sentinelWord State.reset.mb
  | .encMsg seq chn txt => frameBytes .msg State.reset.pw (packMB seq chn txt)
  | .encMsgBcast seq txt => frameBytes .msg State.reset.pw (packMB seq bcastChn txt)

end Sys2Proof.Machine
end

