-- ==== Sys2Proof/Machine/Flags.lean ====
section
/-! DEFINITION. The block has no status flag and no condition code, and no flag computation (10_state.md R29,
41_checksum_accumulator.md R107). What stands for them is the status that host and sink see: the three output ports,
functions of the state alone (R31). -/

namespace Sys2Proof.Machine

/-- CMD_READY (10_state.md R31). -/
def cmdReady (s : State) : Bool := s.phase = .idle

/-- OUT_VALID (10_state.md R31). -/
def outValid (s : State) : Bool := s.phase = .emit

/-- OUT_DATA (10_state.md R31): FrameByte while OUT_VALID = 1, and no observable value otherwise (log 10). -/
def outData (s : State) : Option Byte := if outValid s then some (frameByte s) else none

end Sys2Proof.Machine
end

