-- ==== Sys2Proof/Machine/Ops.lean ====
section
/-! DEFINITION. The operations that the meanings and the step are built from: the writes of the state elements, the
accumulator (41_checksum_accumulator.md R100), the common part of an acceptance (42_frame_wrapper.md R115), a transfer
(R116), a reset (70_reset_and_hazards.md R170), and the reading of a step's inputs. There is no exception entry and no
return from one: the block has none (60_exceptions.md R150, R155). -/

namespace Sys2Proof.Machine

/-- The write `S.PW <- w` (00_scope.md R10). -/
def State.setPw (s : State) (w : Word) : State := { s with pw := w }

/-- The write `S.MB <- m`. -/
def State.setMb (s : State) (m : MsgPayload) : State := { s with mb := m }

/-- The write `S.ACC <- b`. -/
def State.setAcc (s : State) (b : Byte) : State := { s with acc := b }

/-- The writes `S.KIND <- k`, `S.IDX <- 0`, `S.PHASE <- EMIT` of an acceptance (42_frame_wrapper.md R115). -/
def State.startFrame (s : State) (k : Kind) : State := { s with kind := k, idx := 0#4, phase := .emit }

/-- The writes `S.IDX <- 0`, `S.PHASE <- IDLE` at a frame's end (42_frame_wrapper.md R116, R117). -/
def State.endFrame (s : State) : State := { s with idx := 0#4, phase := .idle }

/-- The write `S.IDX <- i + 1` (42_frame_wrapper.md R116), on 4 bits (log 5). -/
def State.nextOffset (s : State) : State := { s with idx := s.idx + 1#4 }

/-- `Emit(b)`: the sink receives b in this step (00_scope.md R10, log 3). -/
def State.emitByte (s : State) (b : Byte) : State := { s with sent := s.sent ++ [b] }

/-- The input ports of this step, `in.P` of 00_scope.md R10: the schedule's first entry, or the free value (log 1). -/
def State.inputs (s : State) : Inputs := s.schedule.headD (Config.freeInputs s.tick)

/-- The same state with this step's inputs used up: the schedule's first entry dropped, or one free value drawn. -/
def State.consume (s : State) : State :=
  match s.schedule with
  | [] => { s with tick := s.tick + 1 }
  | _ :: rest => { s with schedule := rest }

/-- CLEAR (41_checksum_accumulator.md R100, R101). -/
def accClear (s : State) : State := s.setAcc 0x00#8

/-- SEED(b) (41_checksum_accumulator.md R100, R102). -/
def accSeed (b : Byte) (s : State) : State := s.setAcc b

/-- ADD(b), 8-bit wrap-around addition (41_checksum_accumulator.md R100, R103). -/
def accAdd (b : Byte) (s : State) : State := s.setAcc (s.acc + b)

/-- What the transfer of byte b at the current offset does to ACC (42_frame_wrapper.md R116). -/
def accumulate (b : Byte) (s : State) : State :=
  if s.idx.toNat = 1 then accSeed (frameType s.kind) s
  else if 2 ≤ s.idx.toNat ∧ s.idx.toNat ≤ frameLength s.kind - 2 then accAdd b s
  else s

/-- What a transfer does to IDX and PHASE (42_frame_wrapper.md R116, R117). -/
def advance (s : State) : State :=
  if s.idx.toNat = frameLength s.kind - 1 then s.endFrame else s.nextOffset

/-- TRANSFER (42_frame_wrapper.md R116): FrameByte of the state at the step's start is emitted and accumulated, and the
sequencer advances. -/
def transfer (s : State) : State := advance (accumulate (frameByte s) (s.emitByte (frameByte s)))

/-- The part of ACCEPT that all commands share (42_frame_wrapper.md R115): KIND, IDX <- 0, CLEAR, PHASE <- EMIT. -/
def beginFrame (k : Kind) (s : State) : State := (accClear s).startFrame k

/-- RESET (70_reset_and_hazards.md R170): every state element of the block at its reset value (10_state.md R38). The
bytes already sent, and the inputs to come, are not the block's (R171, log 3). -/
def resetBlock (s : State) : State :=
  { s with
    phase := State.reset.phase, kind := State.reset.kind, idx := State.reset.idx
    pw := State.reset.pw, mb := State.reset.mb, acc := State.reset.acc }

/-- The state in which the host offers `c` in the next step and the block can accept it: no reset, no sink accept, PHASE
IDLE (42_frame_wrapper.md R112, log 8). Nothing else changes; the entries already scheduled come after. -/
def offer (c : CommandPorts) (s : State) : State :=
  { s with phase := .idle, schedule := ⟨false, true, c, false⟩ :: s.schedule }

end Sys2Proof.Machine
end

