-- ==== Sys2Proof/Machine/RaceInfo.lean ====
section
/-! DEFINITION. The race-info commands (43_race_info_commands.md): what their acceptance writes. -/

namespace Sys2Proof.Machine

/-- ENC_RI (43_race_info_commands.md R130, with 42_frame_wrapper.md R115). -/
def execEncRi (pos lap secs hunds started chn : Operand) (s : State) : Host.Outcome State Fault Refusal :=
  .next (beginFrame .ri (s.setPw (packRI pos lap secs hunds started chn)))

/-- ENC_RI_SENTINEL (43_race_info_commands.md R131, with 42_frame_wrapper.md R115). -/
def execEncRiSentinel (s : State) : Host.Outcome State Fault Refusal :=
  .next (beginFrame .ri (s.setPw sentinelWord))

end Sys2Proof.Machine
end

