-- ==== Sys2Proof/Machine/RaceMsg.lean ====
section
/-! DEFINITION. The race-message commands (44_race_msg_commands.md): what their acceptance writes. -/

namespace Sys2Proof.Machine

/-- ENC_MSG (44_race_msg_commands.md R140, with 42_frame_wrapper.md R115). -/
def execEncMsg (seq chn : Operand) (txt : Text) (s : State) : Host.Outcome State Fault Refusal :=
  .next (beginFrame .msg (s.setMb (packMB seq chn txt)))

/-- ENC_MSG_BCAST (44_race_msg_commands.md R141, with 42_frame_wrapper.md R115): the channel is BCAST_CHN. -/
def execEncMsgBcast (seq : Operand) (txt : Text) (s : State) : Host.Outcome State Fault Refusal :=
  .next (beginFrame .msg (s.setMb (packMB seq bcastChn txt)))

end Sys2Proof.Machine
end

