-- ==== Sys2Proof/Machine/Dispatch.lean ====
section
/-! DEFINITION. One arm per command: the acceptance of that command, ACCEPT of 42_frame_wrapper.md R115. Whether a step
accepts at all is R112's choice, made in the step (log 9). -/

namespace Sys2Proof.Machine

def exec (i : Instr) (s : State) : Host.Outcome State Fault Refusal :=
  match i with
  | .encRi pos lap secs hunds started chn => Sys2Proof.Machine.execEncRi pos lap secs hunds started chn s
  | .encRiSentinel => Sys2Proof.Machine.execEncRiSentinel s
  | .encMsg seq chn txt => Sys2Proof.Machine.execEncMsg seq chn txt s
  | .encMsgBcast seq txt => Sys2Proof.Machine.execEncMsgBcast seq txt s

end Sys2Proof.Machine
end

