-- ==== Sys2Proof/WellFormed.lean ====
section
/-! DEFINITION. Which notations are well formed. Every `Instr` is: its operands are port values, and the spec has no
reserved or illegal command and no illegal operand (30_encoding.md R71, 60_exceptions.md R150). The checks are on the
assembler's notations, whose numbers are written without a width (30_encoding.md R73, R74). -/

namespace Sys2Proof

/-- A literal fits its port: `0..2^32-1` (30_encoding.md R73). -/
def literalFits (n : Nat) : Bool := n < 2 ^ Config.operandWidth

/-- Every literal of a command line fits its port (30_encoding.md R73). A text has no check: it is cut or filled. -/
def AsmCommand.wf : AsmCommand → Bool
  | .encRi pos lap secs hunds started chn =>
    literalFits pos && literalFits lap && literalFits secs && literalFits hunds && literalFits started && literalFits chn
  | .encRiSentinel => true
  | .encMsg _ seq chn => literalFits seq && literalFits chn
  | .encMsgBcast _ seq => literalFits seq

/-- A call has at most the six values of `encodeRaceInfo`'s parameter list (30_encoding.md R74, log 14). -/
def SourceCall.wf : SourceCall → Bool
  | .encodeRaceInfo values => values.length ≤ 6
  | .encodeRaceMsg _ _ _ => true

end Sys2Proof
end

