-- ==== Sys2Proof/Decode.lean ====
section
/-! DEFINITION. The command encoding (30_encoding.md section 1): which command a step's port values are, which port
values an instruction is, and the one-number form of a command that spec/opcode_table.json counts bits in. Decoding is
total and refuses nothing, because all four CMD_OP values are commands and no operand bit is reserved (R71). -/

namespace Sys2Proof

/-- KINDSEL, bit 1 of CMD_OP (30_encoding.md R60): false is a race-info frame, true a race-message frame. -/
def kindSel (op : BitVec 2) : Bool := op.getLsbD 1

/-- VARIANT, bit 0 of CMD_OP (30_encoding.md R60). -/
def variant (op : BitVec 2) : Bool := op.getLsbD 0

/-- The command of a KINDSEL and a VARIANT (30_encoding.md R60, R61), with the operand ports R62 lists for it. -/
def commandOf (kindSel variant : Bool) (c : CommandPorts) : Instr :=
  match kindSel, variant with
  | false, false => .encRi c.a0 c.a1 c.a2 c.a3 c.a4 c.a5
  | false, true => .encRiSentinel
  | true, false => .encMsg c.a0 c.a1 c.txt
  | true, true => .encMsgBcast c.a0 c.txt

/-- The command that the port values of a step select (30_encoding.md R61). -/
def decode (c : CommandPorts) : Instr := commandOf (kindSel c.op) (variant c.op) c

/-- Six text lanes at 0x00, what a port that a command does not list is driven to (30_encoding.md R73). -/
def noText : Text := ⟨0#8, 0#8, 0#8, 0#8, 0#8, 0#8⟩

/-- The port values of a command: its CMD_OP (30_encoding.md R61), its operands on the ports of R62, and 0 on every
port it does not list (R73). -/
def encode : Instr → CommandPorts
  | .encRi pos lap secs hunds started chn => ⟨0b00#2, pos, lap, secs, hunds, started, chn, noText⟩
  | .encRiSentinel => ⟨0b01#2, 0#32, 0#32, 0#32, 0#32, 0#32, 0#32, noText⟩
  | .encMsg seq chn txt => ⟨0b10#2, seq, chn, 0#32, 0#32, 0#32, 0#32, txt⟩
  | .encMsgBcast seq txt => ⟨0b11#2, seq, 0#32, 0#32, 0#32, 0#32, 0#32, txt⟩

/-- The command ports as one number (log 6, DESIGN CHOICE but for CMD_OP): CMD_OP at bits 1:0 as in
spec/opcode_table.json, then A0..A5 of 32 bits each from bit 2 up, then TXT0..TXT5 of 8 bits each from bit 194 up. -/
def commandWord (c : CommandPorts) : BitVec 242 :=
  c.txt.t5 ++ (c.txt.t4 ++ (c.txt.t3 ++ (c.txt.t2 ++ (c.txt.t1 ++ (c.txt.t0 ++
    (c.a5 ++ (c.a4 ++ (c.a3 ++ (c.a2 ++ (c.a1 ++ (c.a0 ++ c.op)))))))))))

/-- The command ports that a number of `commandWord`'s layout stands for. -/
def portsOfWord (w : BitVec 242) : CommandPorts where
  op := w.extractLsb' 0 2
  a0 := w.extractLsb' 2 32
  a1 := w.extractLsb' 34 32
  a2 := w.extractLsb' 66 32
  a3 := w.extractLsb' 98 32
  a4 := w.extractLsb' 130 32
  a5 := w.extractLsb' 162 32
  txt := {
    t0 := w.extractLsb' 194 8
    t1 := w.extractLsb' 202 8
    t2 := w.extractLsb' 210 8
    t3 := w.extractLsb' 218 8
    t4 := w.extractLsb' 226 8
    t5 := w.extractLsb' 234 8 }

/-- The port values that `nbits` bits of value `w` stand for, every port bit above them 0. -/
def portsOfTableWord (nbits w : Nat) : CommandPorts := portsOfWord (BitVec.ofNat 242 (w % 2 ^ nbits))

/-- The instruction the decoder reads from a command's bits, numbered as spec/opcode_table.json numbers them (log 6, 7). -/
def decodeTableWord (nbits w : Nat) : Option Instr := some (decode (portsOfTableWord nbits w))

end Sys2Proof
end

