-- ==== Sys2Proof/Machine/Events.lean ====
section
/-! DEFINITION. Which event a step takes (42_frame_wrapper.md R112). -/

namespace Sys2Proof.Machine

/-- The four events of a step (42_frame_wrapper.md R112); an acceptance carries the command accepted. -/
inductive Event where
  | reset
  | accept (i : Instr)
  | transfer
  | idle
deriving DecidableEq, Repr

/-- Event selection: the first condition that holds (42_frame_wrapper.md R112). The operands are read in an accepting
step only (10_state.md R37). -/
def selectEvent (inp : Inputs) (p : Phase) : Event :=
  if inp.rst then .reset
  else if p = .idle ∧ inp.cmdValid = true then .accept (decode inp.cmd)
  else if p = .emit ∧ inp.outReady = true then .transfer
  else .idle

/-- The event of the next step of a state. -/
def eventOf (s : State) : Event := selectEvent s.inputs s.phase

end Sys2Proof.Machine
end

