-- ==== Sys2Proof/Machine/Step.lean ====
section
/-! DEFINITION. The step function (42_frame_wrapper.md R119), and how one command is put before it. -/

namespace Sys2Proof.Machine

/-- Step (42_frame_wrapper.md R119): this step's inputs are read and used up, and the event they select happens. -/
def step (s : State) : Host.Outcome State Fault Refusal :=
  match eventOf s with
  | .reset => .next (resetBlock s.consume)
  | .accept i => exec i s.consume
  | .transfer => .next (transfer s.consume)
  | .idle => .next s.consume

/-- The state whose next step runs exactly the command whose bits are `w` (log 8). The block fetches nothing
(10_state.md R28): a command runs when the host offers it while PHASE = IDLE, so this is that offer. -/
def State.withFetchWord (s : State) (nbits w : Nat) : State := offer (portsOfTableWord nbits w) s

end Sys2Proof.Machine
end

