-- ==== Sys2Proof/Machine/Assembler.lean ====
section
/-! DEFINITION. The assembler of 30_encoding.md section 4: from command lines (R73) and pseudo-instructions (R74) to
commands. It is notation of the host's side, not part of the block. -/

namespace Sys2Proof.Machine

/-- Why the assembler refuses a line. -/
inductive AsmError where
  /-- A character, or a literal, that R73's notation does not have (log 13). -/
  | badToken
  /-- No command of R73 with operands of this number and shape. -/
  | badCommand
  /-- A numeric literal that does not fit OPERAND_WIDTH (R73). -/
  | literalTooLarge
  /-- More values than `encodeRaceInfo` has parameters (log 14). -/
  | tooManyValues
deriving DecidableEq, Repr

/-- The text lanes of a byte string: byte i on TXT_i for i = 0..5, bytes 6 and on dropped, 0x00 past the end
(30_encoding.md R73). -/
def textOf (bytes : List Byte) : Text where
  t0 := bytes.getD 0 0x00#8
  t1 := bytes.getD 1 0x00#8
  t2 := bytes.getD 2 0x00#8
  t3 := bytes.getD 3 0x00#8
  t4 := bytes.getD 4 0x00#8
  t5 := bytes.getD 5 0x00#8

/-- A literal that fits its port, as the value on that port. -/
def operandOf (n : Nat) : Operand := BitVec.ofNat 32 n

/-- The command a command line assembles to; a literal that does not fit is refused (30_encoding.md R73). -/
def assemble (a : AsmCommand) : Except AsmError Instr :=
  if a.wf then
    .ok (match a with
      | .encRi pos lap secs hunds started chn =>
        .encRi (operandOf pos) (operandOf lap) (operandOf secs) (operandOf hunds) (operandOf started) (operandOf chn)
      | .encRiSentinel => .encRiSentinel
      | .encMsg text seq chn => .encMsg (operandOf seq) (operandOf chn) (textOf text)
      | .encMsgBcast text seq => .encMsgBcast (operandOf seq) (textOf text))
  else .error .literalTooLarge

/-- The command line that a pseudo-instruction expands to (30_encoding.md R74): fewer than six race-info values are
discarded and give the sentinel, and an omitted channel gives the broadcast form. -/
def expand : SourceCall → Except AsmError AsmCommand
  | .encodeRaceInfo [pos, lap, secs, hunds, started, chn] => .ok (.encRi pos lap secs hunds started chn)
  | .encodeRaceInfo values => if values.length < 6 then .ok .encRiSentinel else .error .tooManyValues
  | .encodeRaceMsg text seq none => .ok (.encMsgBcast text seq)
  | .encodeRaceMsg text seq (some chn) => .ok (.encMsg text seq chn)

/-! ### The written form of a command line (30_encoding.md R73; lexical details log 13) -/

/-- The tokens of a command line. -/
inductive Token where
  | word (cs : List Char)
  | text (bytes : List Byte)
  | comma
deriving DecidableEq, Repr

/-- The value of a hexadecimal digit. -/
def hexDigit? (c : Char) : Option Nat :=
  let n := c.toNat
  if 48 ≤ n ∧ n ≤ 57 then some (n - 48)
  else if 97 ≤ n ∧ n ≤ 102 then some (n - 87)
  else if 65 ≤ n ∧ n ≤ 70 then some (n - 55)
  else none

/-- The value of a decimal digit. -/
def decDigit? (c : Char) : Option Nat := if 48 ≤ c.toNat ∧ c.toNat ≤ 57 then some (c.toNat - 48) else none

/-- The value of a run of digits, most significant first, on top of what stands before it. -/
def digits? (digit? : Char → Option Nat) (base : Nat) : Nat → List Char → Option Nat
  | acc, [] => some acc
  | acc, c :: cs => (digit? c).bind fun d => digits? digit? base (acc * base + d) cs

/-- An unsigned decimal or `0x` hexadecimal literal (30_encoding.md R73). -/
def literal? : List Char → Option Nat
  | [] => none
  | '0' :: 'x' :: c :: cs => digits? hexDigit? 16 0 (c :: cs)
  | cs => digits? decDigit? 10 0 cs

/-- A character of a mnemonic or a literal: a letter, a digit or an underscore. -/
def isWordChar (c : Char) : Bool :=
  let n := c.toNat
  (48 ≤ n ∧ n ≤ 57) ∨ (65 ≤ n ∧ n ≤ 90) ∨ (97 ≤ n ∧ n ≤ 122) ∨ n = 95

/-- Where the reader of a line stands: outside a token, in a word, in a text, or in one of a text's escapes. What has
been read of the token is held in reverse. -/
inductive LexMode where
  | outside
  | inWord (acc : List Char)
  | inText (acc : List Byte)
  | inEscape (acc : List Byte)
  | inHex (acc : List Byte)
  | inHex2 (acc : List Byte) (hi : Nat)
deriving DecidableEq, Repr

/-- What a character outside a token does: it starts one, is one, or separates (log 13). -/
def lexOutside (c : Char) : Option (LexMode × List Token) :=
  if c = ' ' ∨ c = '\t' then some (.outside, [])
  else if c = ',' then some (.outside, [.comma])
  else if c = '"' then some (.inText [], [])
  else if isWordChar c then some (.inWord [c], [])
  else none

/-- One character of a line: the next place, and the tokens it completes. The escapes of a text are `\0`, `\\`, `\"`
and `\xNN`, each one byte (30_encoding.md R73). -/
def lexChar (m : LexMode) (c : Char) : Option (LexMode × List Token) :=
  match m with
  | .outside => lexOutside c
  | .inWord acc =>
    if isWordChar c then some (.inWord (c :: acc), [])
    else (lexOutside c).map fun (m', ts) => (m', .word acc.reverse :: ts)
  | .inText acc =>
    if c = '"' then some (.outside, [.text acc.reverse])
    else if c = '\\' then some (.inEscape acc, [])
    else if c.toNat < 128 then some (.inText (BitVec.ofNat 8 c.toNat :: acc), [])
    else none
  | .inEscape acc =>
    if c = '0' then some (.inText (0x00#8 :: acc), [])
    else if c = '\\' ∨ c = '"' then some (.inText (BitVec.ofNat 8 c.toNat :: acc), [])
    else if c = 'x' then some (.inHex acc, [])
    else none
  | .inHex acc => (hexDigit? c).map fun hi => (.inHex2 acc hi, [])
  | .inHex2 acc hi => (hexDigit? c).map fun lo => (.inText (BitVec.ofNat 8 (16 * hi + lo) :: acc), [])

/-- The tokens of a line; a line that ends inside a text has none. -/
def lex : LexMode → List Char → Option (List Token)
  | .outside, [] => some []
  | .inWord acc, [] => some [.word acc.reverse]
  | _, [] => none
  | m, c :: cs => (lexChar m c).bind fun (m', ts) => (lex m' cs).map (ts ++ ·)

/-- The numeric operands of a list separated by commas. -/
def numbers? : List Token → Option (List Nat)
  | [] => none
  | [.word w] => (literal? w).map fun n => [n]
  | .word w :: .comma :: rest => (literal? w).bind fun n => (numbers? rest).map (n :: ·)
  | _ => none

/-- The command line that a list of tokens is (30_encoding.md R73). -/
def command? : List Token → Option AsmCommand
  | [.word m] => if m = "ENC_RI_SENTINEL".toList then some .encRiSentinel else none
  | .word m :: .text t :: .comma :: rest =>
    if m = "ENC_MSG".toList then
      match numbers? rest with
      | some [seq, chn] => some (.encMsg t seq chn)
      | _ => none
    else if m = "ENC_MSG_BCAST".toList then
      match numbers? rest with
      | some [seq] => some (.encMsgBcast t seq)
      | _ => none
    else none
  | .word m :: rest =>
    if m = "ENC_RI".toList then
      match numbers? rest with
      | some [pos, lap, secs, hunds, started, chn] => some (.encRi pos lap secs hunds started chn)
      | _ => none
    else none
  | _ => none

/-- A written command line as the port values the host offers (30_encoding.md R73). -/
def assembleLine (line : List Char) : Except AsmError CommandPorts :=
  match lex .outside line with
  | none => .error .badToken
  | some ts =>
    match command? ts with
    | none => .error .badCommand
    | some a => (assemble a).map encode

/-- A pseudo-instruction as the port values the host offers (30_encoding.md R74). -/
def assembleCall (c : SourceCall) : Except AsmError CommandPorts :=
  (expand c).bind fun a => (assemble a).map encode

end Sys2Proof.Machine
end

