-- ==== Sys2Proof/Safety.lean ====
section
/-! DEFINITION. The terms that claims are made in: the invariants of a good state, what a run does, and what the block
still owes the sink. -/

namespace Sys2Proof.Machine

/-- The invariants of 10_state.md R36, that every reachable state after reset keeps, in R36's order. -/
abbrev State.Sound (s : State) : Prop :=
  (s.phase = .idle → s.idx = 0#4)
    ∧ (s.phase = .emit → s.idx.toNat < frameLength s.kind)
    ∧ (s.pw.extractLsb' 25 7 = 0#7 ∨ s.pw = 0xFFFFFFFF#32)
    ∧ s.mb.b0.getLsbD 7 = false
    ∧ s.mb.b7 = 0x00#8
    ∧ ∀ k < 7, 1 ≤ k → mbByte? s.mb k = some 0x00#8 → ∀ j < 8, k ≤ j → mbByte? s.mb j = some 0x00#8

/-- While a frame goes out, ACC is the mod-256 sum of the bytes at the offsets 1..IDX-1 already transferred: what R101 to
R103 of 41_checksum_accumulator.md have made of it. -/
abbrev State.Summed (s : State) : Prop :=
  s.phase = .emit → s.acc = checksum (((frameBytes s.kind s.pw s.mb).take s.idx.toNat).drop 1)

/-- The state right after an acceptance: a frame is due, none of it has gone out (42_frame_wrapper.md R115). -/
abbrev State.Fresh (s : State) : Prop := s.phase = .emit ∧ s.idx = 0#4 ∧ s.acc = 0x00#8

/-- Two states with the same six elements of the block. -/
abbrev State.SameBlock (s t : State) : Prop :=
  s.phase = t.phase ∧ s.kind = t.kind ∧ s.idx = t.idx ∧ s.pw = t.pw ∧ s.mb = t.mb ∧ s.acc = t.acc

/-- Two states whose environment is the same: the inputs to come, and the bytes received so far. -/
abbrev State.SameEnvironment (s t : State) : Prop := s.schedule = t.schedule ∧ s.tick = t.tick ∧ s.sent = t.sent

/-- The outcome of `k` steps. -/
abbrev runFor (k : Nat) (s : State) : Host.Outcome State Fault Refusal := Host.Core.run Sys2Proof.core k s

/-- The input ports of the first `k` steps, the first step's first: they do not depend on what the block does. -/
def inputsIn : Nat → State → List Inputs
  | 0, _ => []
  | k + 1, s => s.inputs :: inputsIn k s.consume

/-- The events of the first `k` steps from a state, the first step's first. -/
def eventsIn : Nat → State → List Event
  | 0, _ => []
  | k + 1, s =>
    eventOf s :: match step s with
      | .next t => eventsIn k t
      | .fault _ => []
      | .refused _ => []

/-- No reset in the first `k` steps. -/
abbrev NoReset (k : Nat) (s : State) : Prop := Event.reset ∉ eventsIn k s

/-- How many bytes are transferred in the first `k` steps. -/
def transfersIn (k : Nat) (s : State) : Nat := (eventsIn k s).count .transfer

/-- The command an event accepts. -/
def Event.command? : Event → Option Instr
  | .accept i => some i
  | .reset => none
  | .transfer => none
  | .idle => none

/-- The commands accepted in the first `k` steps, in order. -/
def acceptedIn (k : Nat) (s : State) : List Instr := (eventsIn k s).filterMap Event.command?

/-- The bytes of the frame in progress that the sink has not received. -/
def owed (s : State) : List Byte :=
  match s.phase with
  | .idle => []
  | .emit => (frameBytes s.kind s.pw s.mb).drop s.idx.toNat

end Sys2Proof.Machine
end

