-- ==== Sys2Proof/Certificates/Slice0/Obligations.lean ====
section
/-! DEFINITION. The statements for the provers. Each docstring names the rule of spec/ that it states. -/

open Sys2Proof Sys2Proof.Machine

/-! ### Encoding of commands -/

/-- 30_encoding.md R61, with R62's operand roles: each CMD_OP value is its command, and the command's acceptance makes a
frame of that kind with that payload. -/
def Obligations.CommandMapSelectsEachCommand : Prop :=
  ∀ (c : CommandPorts) (s : State),
    (c.op = 0b00#2 → decode c = .encRi c.a0 c.a1 c.a2 c.a3 c.a4 c.a5
      ∧ ∃ t, exec (decode c) s = .next t ∧ t.kind = .ri ∧ t.pw = packRI c.a0 c.a1 c.a2 c.a3 c.a4 c.a5)
    ∧ (c.op = 0b01#2 → decode c = .encRiSentinel
      ∧ ∃ t, exec (decode c) s = .next t ∧ t.kind = .ri ∧ t.pw = 0xFFFFFFFF#32)
    ∧ (c.op = 0b10#2 → decode c = .encMsg c.a0 c.a1 c.txt
      ∧ ∃ t, exec (decode c) s = .next t ∧ t.kind = .msg ∧ t.mb = packMB c.a0 c.a1 c.txt)
    ∧ (c.op = 0b11#2 → decode c = .encMsgBcast c.a0 c.txt
      ∧ ∃ t, exec (decode c) s = .next t ∧ t.kind = .msg ∧ t.mb = packMB c.a0 0x0F#32 c.txt)

/-- 30_encoding.md R62: two offers that agree on CMD_OP and on the ports its command lists are the same command, with
the same effect and the same frame; every other port is ignored. -/
def Obligations.OnlyListedPortsMatter : Prop :=
  ∀ (c c' : CommandPorts) (s : State),
    c.op = c'.op →
    (c.op = 0b00#2 → c.a0 = c'.a0 ∧ c.a1 = c'.a1 ∧ c.a2 = c'.a2 ∧ c.a3 = c'.a3 ∧ c.a4 = c'.a4 ∧ c.a5 = c'.a5) →
    (c.op = 0b10#2 → c.a0 = c'.a0 ∧ c.a1 = c'.a1 ∧ c.txt = c'.txt) →
    (c.op = 0b11#2 → c.a0 = c'.a0 ∧ c.txt = c'.txt) →
    exec (decode c) s = exec (decode c') s ∧ commandFrame (decode c) = commandFrame (decode c')

/-- Encoding and decoding agree on whole command words, in the model's own layout of the ports (log 6): every command
with any operand values is read back, and every word is some ports' word, so no bit is dropped. -/
def Obligations.CommandWordRoundTrip : Prop :=
  (∀ i : Instr, decode (portsOfWord (commandWord (encode i))) = i)
    ∧ (∀ w : BitVec 242, commandWord (portsOfWord w) = w)
    ∧ ∀ i : Instr, decodeTableWord 248 (commandWord (encode i)).toNat = some i

/-- Words written out bit by bit, one per row of spec/opcode_table.json; A0 starts at bit 2, A1 at bit 34 (log 6). -/
def Obligations.WrittenWordsDecode : Prop :=
  decodeTableWord 8 0b00 = some (.encRi 0 0 0 0 0 0)
    ∧ decodeTableWord 8 0b01 = some .encRiSentinel
    ∧ decodeTableWord 40 (0b1001 * 2 ^ 34 + 0b101 * 2 ^ 2 + 0b10) = some (.encMsg 5 9 noText)
    ∧ decodeTableWord 8 (0b010 * 2 ^ 2 + 0b11) = some (.encMsgBcast 2 noText)

/-! ### The bit-field packer -/

/-- 40_bitfield_packer.md R81: PackRI is the sum of its six truncated operands, each shifted to its place. Each term
fits below the next, so nothing overlaps and OR is addition. -/
def Obligations.PackRIIsShiftedSumOfFields : Prop :=
  ∀ a0 a1 a2 a3 a4 a5 : Operand,
    (packRI a0 a1 a2 a3 a4 a5).toNat =
        a0.toNat % 2 ^ 3 + a1.toNat % 2 ^ 4 * 2 ^ 3 + a2.toNat % 2 ^ 6 * 2 ^ 7 + a3.toNat % 2 ^ 7 * 2 ^ 13
          + a4.toNat % 2 ^ 1 * 2 ^ 20 + a5.toNat % 2 ^ 4 * 2 ^ 21
      ∧ (packRI a0 a1 a2 a3 a4 a5).extractLsb' 25 7 = 0#7

/-- 40_bitfield_packer.md R84: UnpackRI of PackRI gives each operand truncated to its field's width. -/
def Obligations.UnpackRecoversTruncatedOperands : Prop :=
  ∀ (a0 a1 a2 a3 a4 a5 : Operand),
    unpackRI (packRI a0 a1 a2 a3 a4 a5)
        = ⟨a0.setWidth 3, a1.setWidth 4, a2.setWidth 6, a3.setWidth 7, a4.setWidth 1, a5.setWidth 4⟩
      ∧ ∀ w : Word, unpackRI w = ⟨w.extractLsb' 0 3, w.extractLsb' 3 4, w.extractLsb' 7 6, w.extractLsb' 13 7,
          w.extractLsb' 20 1, w.extractLsb' 21 4⟩

/-- 40_bitfield_packer.md R82: each field of an accepted command is its own operand mod 2^w, so operands with the same
low bits have the same effect: nothing is flagged, saturated, refused, or spilt into another field. -/
def Obligations.OnlyLowBitsOfOperandsMatter : Prop :=
  (∀ (a0 a1 a2 a3 a4 a5 b0 b1 b2 b3 b4 b5 : Operand) (s : State),
    a0.toNat % 2 ^ 3 = b0.toNat % 2 ^ 3 → a1.toNat % 2 ^ 4 = b1.toNat % 2 ^ 4 → a2.toNat % 2 ^ 6 = b2.toNat % 2 ^ 6 →
    a3.toNat % 2 ^ 7 = b3.toNat % 2 ^ 7 → a4.toNat % 2 ^ 1 = b4.toNat % 2 ^ 1 → a5.toNat % 2 ^ 4 = b5.toNat % 2 ^ 4 →
    ∃ t, exec (.encRi a0 a1 a2 a3 a4 a5) s = .next t ∧ exec (.encRi b0 b1 b2 b3 b4 b5) s = .next t
      ∧ (unpackRI t.pw).pos.toNat = a0.toNat % 2 ^ 3 ∧ (unpackRI t.pw).lap.toNat = a1.toNat % 2 ^ 4
      ∧ (unpackRI t.pw).secs.toNat = a2.toNat % 2 ^ 6 ∧ (unpackRI t.pw).hunds.toNat = a3.toNat % 2 ^ 7
      ∧ (unpackRI t.pw).started.toNat = a4.toNat % 2 ^ 1 ∧ (unpackRI t.pw).chn.toNat = a5.toNat % 2 ^ 4)
  ∧ (∀ (a0 a1 b0 b1 : Operand) (x : Text) (s : State),
    a0.toNat % 2 ^ 3 = b0.toNat % 2 ^ 3 → a1.toNat % 2 ^ 4 = b1.toNat % 2 ^ 4 →
    ∃ t, exec (.encMsg a0 a1 x) s = .next t ∧ exec (.encMsg b0 b1 x) s = .next t
      ∧ (t.mb.b0.extractLsb' 0 3).toNat = a0.toNat % 2 ^ 3 ∧ (t.mb.b0.extractLsb' 3 4).toNat = a1.toNat % 2 ^ 4)
  ∧ ∀ (a0 b0 : Operand) (x : Text) (s : State),
    a0.toNat % 2 ^ 3 = b0.toNat % 2 ^ 3 →
    ∃ t, exec (.encMsgBcast a0 x) s = .next t ∧ exec (.encMsgBcast b0 x) s = .next t
      ∧ (t.mb.b0.extractLsb' 0 3).toNat = a0.toNat % 2 ^ 3

/-- 40_bitfield_packer.md R85: PackRI keeps PW[31:25] = 0, so it never gives SENTINEL_WORD, and it is a bijection from
the in-range tuples onto the words with PW[31:25] = 0. -/
def Obligations.PackRIIsBijectionAwayFromSentinel : Prop :=
  (∀ a0 a1 a2 a3 a4 a5 : Operand,
    (packRI a0 a1 a2 a3 a4 a5).extractLsb' 25 7 = 0#7 ∧ packRI a0 a1 a2 a3 a4 a5 ≠ sentinelWord)
  ∧ ∀ w : Word, w.extractLsb' 25 7 = 0#7 →
    ∃! a : Operand × Operand × Operand × Operand × Operand × Operand,
      (a.1.toNat < 8 ∧ a.2.1.toNat < 16 ∧ a.2.2.1.toNat < 64 ∧ a.2.2.2.1.toNat < 128 ∧ a.2.2.2.2.1.toNat < 2
        ∧ a.2.2.2.2.2.toNat < 16)
      ∧ packRI a.1 a.2.1 a.2.2.1 a.2.2.2.1 a.2.2.2.2.1 a.2.2.2.2.2 = w

/-- 40_bitfield_packer.md R86: seq_id at bits 2:0, chn_idx at bits 6:3, both truncated, bit 7 = 0; the broadcast channel
adds 0x78. -/
def Obligations.PackFlagsPlacesSeqAndChannel : Prop :=
  ∀ s c : Operand,
    (packFlags s c).toNat = s.toNat % 2 ^ 3 + c.toNat % 2 ^ 4 * 2 ^ 3
      ∧ (packFlags s c).getLsbD 7 = false
      ∧ (packFlags s bcastChn).toNat = s.toNat % 2 ^ 3 + 0x78

/-- 40_bitfield_packer.md R87: lane by lane, and as a whole: the lanes up to the first 0x00, then zeros up to six. -/
def Obligations.CopyTextStopsAtFirstZero : Prop :=
  ∀ t : Text,
    (∀ i < 6, (lanes (copyText t))[i]?
      = if ∀ j < i, (lanes t)[j]? ≠ some 0x00#8 then (lanes t)[i]? else some 0x00#8)
    ∧ lanes (copyText t) = (lanes t).takeWhile (· ≠ 0x00#8)
        ++ List.replicate (6 - ((lanes t).takeWhile (· ≠ 0x00#8)).length) 0x00#8

/-- 40_bitfield_packer.md R88: the flags byte, the six copied text bytes, and 0x00; so the message field is the text up
to its first 0x00, filled with zeros to seven bytes. -/
def Obligations.PackMBLaysOutPayload : Prop :=
  ∀ (s c : Operand) (t : Text),
    mbBytes (packMB s c t) = packFlags s c :: lanes (copyText t) ++ [0x00#8]
      ∧ (packFlags s c).toNat = s.toNat % 8 + 8 * (c.toNat % 16)
      ∧ mbBytes (packMB s c t) = packFlags s c :: (lanes t).takeWhile (· ≠ 0x00#8)
          ++ List.replicate (7 - ((lanes t).takeWhile (· ≠ 0x00#8)).length) 0x00#8

/-! ### Acceptance of each command -/

/-- The acceptance of the race-info commands, from any state (43_race_info_commands.md R130, R131 and
42_frame_wrapper.md R115): the next state is the old one but for PHASE, KIND, IDX, ACC and PW; MB, and the environment
with its output, stay. -/
def Obligations.RaceInfoAcceptanceEffect : Prop :=
  (∀ (pos lap secs hunds started chn : Operand) (s : State), ∃ w : Word,
    exec (.encRi pos lap secs hunds started chn) s
        = .next { s with phase := .emit, kind := .ri, idx := 0#4, acc := 0x00#8, pw := w }
      ∧ w.toNat = pos.toNat % 8 + lap.toNat % 16 * 2 ^ 3 + secs.toNat % 64 * 2 ^ 7 + hunds.toNat % 128 * 2 ^ 13
          + started.toNat % 2 * 2 ^ 20 + chn.toNat % 16 * 2 ^ 21)
  ∧ ∀ s : State,
    exec .encRiSentinel s
      = .next { s with phase := .emit, kind := .ri, idx := 0#4, acc := 0x00#8, pw := 0xFFFFFFFF#32 }

/-- The acceptance of the race-message commands, from any state (44_race_msg_commands.md R140, R141 and
42_frame_wrapper.md R115): the next state is the old one but for PHASE, KIND, IDX, ACC and MB; PW, and the environment
with its output, stay. -/
def Obligations.RaceMessageAcceptanceEffect : Prop :=
  (∀ (seq chn : Operand) (x : Text) (s : State), ∃ m : MsgPayload,
    exec (.encMsg seq chn x) s
        = .next { s with phase := .emit, kind := .msg, idx := 0#4, acc := 0x00#8, mb := m }
      ∧ m.b0.toNat = seq.toNat % 8 + chn.toNat % 16 * 8
      ∧ [m.b1, m.b2, m.b3, m.b4, m.b5, m.b6] = lanes (copyText x) ∧ m.b7 = 0x00#8)
  ∧ ∀ (seq : Operand) (x : Text) (s : State), ∃ m : MsgPayload,
    exec (.encMsgBcast seq x) s
        = .next { s with phase := .emit, kind := .msg, idx := 0#4, acc := 0x00#8, mb := m }
      ∧ m.b0.toNat = seq.toNat % 8 + 0x78
      ∧ [m.b1, m.b2, m.b3, m.b4, m.b5, m.b6] = lanes (copyText x) ∧ m.b7 = 0x00#8

/-- 42_frame_wrapper.md R115: a step that accepts writes KIND from CMD_OP[1], IDX, ACC and PHASE, makes the selected
command's payload write, and transfers no byte; the preamble is the first byte due. -/
def Obligations.AcceptanceStepStartsFrame : Prop :=
  ∀ s : State, s.phase = .idle → s.inputs.rst = false → s.inputs.cmdValid = true →
    ∃ t, step s = .next t ∧ exec (decode s.inputs.cmd) s.consume = .next t
      ∧ (t.kind = .ri ↔ s.inputs.cmd.op.getLsbD 1 = false)
      ∧ t.idx = 0#4 ∧ t.acc = 0x00#8 ∧ t.phase = .emit ∧ t.sent = s.sent ∧ outData t = some 0xFC#8
      ∧ (t.pw = if s.inputs.cmd.op = 0b00#2
          then packRI s.inputs.cmd.a0 s.inputs.cmd.a1 s.inputs.cmd.a2 s.inputs.cmd.a3 s.inputs.cmd.a4 s.inputs.cmd.a5
          else if s.inputs.cmd.op = 0b01#2 then 0xFFFFFFFF#32 else s.pw)
      ∧ (t.mb = if s.inputs.cmd.op = 0b10#2 then packMB s.inputs.cmd.a0 s.inputs.cmd.a1 s.inputs.cmd.txt
          else if s.inputs.cmd.op = 0b11#2 then packMB s.inputs.cmd.a0 0x0F#32 s.inputs.cmd.txt else s.mb)

/-- A step runs the command it decodes: with the command offered, and nothing of the state needed but PHASE = IDLE and
no reset, the step is `exec` of it on the state with this step's inputs used up. `withFetchWord` makes just that offer
(log 8), whatever the state. -/
def Obligations.StepRunsDecodedCommand : Prop :=
  (∀ s : State, s.phase = .idle → s.inputs.rst = false → s.inputs.cmdValid = true →
    step s = exec (decode s.inputs.cmd) s.consume)
  ∧ ∀ (s : State) (nbits w : Nat) (i : Instr), decodeTableWord nbits w = some i →
    step (s.withFetchWord nbits w) = exec i { s with phase := .idle }

/-! ### The frame of each command -/

/-- 43_race_info_commands.md R130: the accepting step, and the frame that goes out over the next 8 transfers, however
many idle steps lie between them and whatever is offered meanwhile. -/
def Obligations.EncRiProducesItsFrame : Prop :=
  ∀ s : State, s.phase = .idle → s.inputs.rst = false → s.inputs.cmdValid = true → s.inputs.cmd.op = 0b00#2 →
    ∃ t, step s = .next t ∧ t.kind = .ri ∧ t.mb = s.mb
      ∧ t.pw = packRI s.inputs.cmd.a0 s.inputs.cmd.a1 s.inputs.cmd.a2 s.inputs.cmd.a3 s.inputs.cmd.a4 s.inputs.cmd.a5
      ∧ t.pw.extractLsb' 25 7 = 0#7
      ∧ ∀ k : Nat, NoReset k t → transfersIn k t ≤ 8 →
        ∃ u, runFor k t = .next u ∧ u.sent = s.sent ++ [0xFC#8, 0x5A#8, t.pw.extractLsb' 0 8, t.pw.extractLsb' 8 8,
          t.pw.extractLsb' 16 8, t.pw.extractLsb' 24 8, 0xFE#8,
          BitVec.ofNat 8 (0x5A + (t.pw.extractLsb' 0 8).toNat + (t.pw.extractLsb' 8 8).toNat
            + (t.pw.extractLsb' 16 8).toNat + (t.pw.extractLsb' 24 8).toNat + 0xFE)].take (transfersIn k t)

/-- 43_race_info_commands.md R131: the sentinel frame, whatever the operand ports hold. -/
def Obligations.EncRiSentinelProducesItsFrame : Prop :=
  ∀ s : State, s.phase = .idle → s.inputs.rst = false → s.inputs.cmdValid = true → s.inputs.cmd.op = 0b01#2 →
    ∃ t, step s = .next t ∧ t.kind = .ri ∧ t.pw = 0xFFFFFFFF#32 ∧ t.mb = s.mb
      ∧ (∀ a0 a1 a2 a3 a4 a5 : Operand, packRI a0 a1 a2 a3 a4 a5 ≠ t.pw)
      ∧ ∀ k : Nat, NoReset k t → transfersIn k t ≤ 8 →
        ∃ u, runFor k t = .next u
          ∧ u.sent = s.sent ++ [0xFC#8, 0x5A#8, 0xFF#8, 0xFF#8, 0xFF#8, 0xFF#8, 0xFE#8, 0x54#8].take (transfersIn k t)

/-- 44_race_msg_commands.md R140: the accepting step, and the frame over the next 12 transfers. -/
def Obligations.EncMsgProducesItsFrame : Prop :=
  ∀ s : State, s.phase = .idle → s.inputs.rst = false → s.inputs.cmdValid = true → s.inputs.cmd.op = 0b10#2 →
    ∃ (t : State) (f : Byte), step s = .next t ∧ t.kind = .msg ∧ t.pw = s.pw
      ∧ t.mb = packMB s.inputs.cmd.a0 s.inputs.cmd.a1 s.inputs.cmd.txt
      ∧ f.toNat = s.inputs.cmd.a0.toNat % 2 ^ 3 + s.inputs.cmd.a1.toNat % 2 ^ 4 * 2 ^ 3
      ∧ ∀ k : Nat, NoReset k t → transfersIn k t ≤ 12 →
        ∃ u, runFor k t = .next u
          ∧ u.sent = s.sent ++ ([0xFC#8, 0x5B#8, f] ++ lanes (copyText s.inputs.cmd.txt) ++ [0x00#8, 0xFE#8,
              BitVec.ofNat 8 (0x5B + f.toNat + ((lanes (copyText s.inputs.cmd.txt)).map BitVec.toNat).sum + 0x00
                + 0xFE)]).take (transfersIn k t)

/-- 44_race_msg_commands.md R141: as R140 with the broadcast channel, so with F = A0[2:0] | 0x78, whatever A1 holds. -/
def Obligations.EncMsgBcastProducesItsFrame : Prop :=
  ∀ s : State, s.phase = .idle → s.inputs.rst = false → s.inputs.cmdValid = true → s.inputs.cmd.op = 0b11#2 →
    ∃ (t : State) (f : Byte), step s = .next t ∧ t.kind = .msg ∧ t.pw = s.pw
      ∧ t.mb = packMB s.inputs.cmd.a0 0x0F#32 s.inputs.cmd.txt
      ∧ f = (s.inputs.cmd.a0.extractLsb' 0 3).setWidth 8 ||| 0x78#8
      ∧ ∀ k : Nat, NoReset k t → transfersIn k t ≤ 12 →
        ∃ u, runFor k t = .next u
          ∧ u.sent = s.sent ++ ([0xFC#8, 0x5B#8, f] ++ lanes (copyText s.inputs.cmd.txt) ++ [0x00#8, 0xFE#8,
              BitVec.ofNat 8 (0x5B + f.toNat + ((lanes (copyText s.inputs.cmd.txt)).map BitVec.toNat).sum + 0x00
                + 0xFE)]).take (transfersIn k t)

/-- 30_encoding.md R75: what each byte of a command's frame can be, and the frame's length. -/
def Obligations.FrameBytesStayInTheirRanges : Prop :=
  ∀ i : Instr,
    (commandFrame i)[0]? = some 0xFC#8
    ∧ (commandKind i = .ri → (commandFrame i).length = 8 ∧ (commandFrame i)[1]? = some 0x5A#8
      ∧ (commandFrame i)[6]? = some 0xFE#8
      ∧ ((commandFrame i)[5]? = some 0x00#8 ∨ (commandFrame i)[5]? = some 0x01#8 ∨ (commandFrame i)[5]? = some 0xFF#8))
    ∧ (commandKind i = .msg → (commandFrame i).length = 12 ∧ (commandFrame i)[1]? = some 0x5B#8
      ∧ (commandFrame i)[10]? = some 0xFE#8 ∧ (commandFrame i)[9]? = some 0x00#8
      ∧ ∃ f : Byte, (commandFrame i)[2]? = some f ∧ f.toNat ≤ 0x7F)

/-- An explicit channel whose low four bits are 1111 makes the broadcast frame (30_encoding.md R74,
44_race_msg_commands.md R140), and the same next state. -/
def Obligations.ExplicitChannelFifteenIsBroadcast : Prop :=
  ∀ (seq chn : Operand) (x : Text) (s : State), chn.toNat % 16 = 15 →
    exec (.encMsg seq chn x) s = exec (.encMsgBcast seq x) s
      ∧ commandFrame (.encMsg seq chn x) = commandFrame (.encMsgBcast seq x)

/-! ### The wrapper and the step -/

/-- 42_frame_wrapper.md R110, with the little-endian order of 20_memory.md R41: the byte selected at every offset of a
frame of either kind, in any state. -/
def Obligations.FrameByteSelectsEachOffset : Prop :=
  ∀ s : State,
    (s.kind = .ri → s.idx.toNat < 8 → some (frameByte s) =
      [0xFC#8, 0x5A#8, s.pw.extractLsb' 0 8, s.pw.extractLsb' 8 8, s.pw.extractLsb' 16 8, s.pw.extractLsb' 24 8, 0xFE#8,
        s.acc][s.idx.toNat]?)
    ∧ (s.kind = .msg → s.idx.toNat < 12 → some (frameByte s) =
      [0xFC#8, 0x5B#8, s.mb.b0, s.mb.b1, s.mb.b2, s.mb.b3, s.mb.b4, s.mb.b5, s.mb.b6, s.mb.b7, 0xFE#8,
        s.acc][s.idx.toNat]?)
    ∧ (s.phase = .emit → outData s = some (frameByte s))

/-- 10_state.md R31: the output ports are functions of the block's state alone, not of the inputs; OUT_DATA is
FrameByte while OUT_VALID = 1, and nothing is to be observed otherwise. -/
def Obligations.OutputPortsFollowState : Prop :=
  ∀ s s' : State,
    (cmdReady s = true ↔ s.phase = .idle) ∧ (outValid s = true ↔ s.phase = .emit)
    ∧ (outValid s = true → outData s = some (frameByte s)) ∧ (outValid s = false → outData s = none)
    ∧ (s.SameBlock s' → cmdReady s = cmdReady s' ∧ outValid s = outValid s' ∧ outData s = outData s')

/-- 42_frame_wrapper.md R112: the first condition that holds selects the event. -/
def Obligations.FirstConditionSelectsEvent : Prop :=
  ∀ s : State,
    (s.inputs.rst = true → eventOf s = .reset)
    ∧ (s.inputs.rst = false → s.phase = .idle → s.inputs.cmdValid = true → eventOf s = .accept (decode s.inputs.cmd))
    ∧ (s.inputs.rst = false → s.phase = .emit → s.inputs.outReady = true → eventOf s = .transfer)
    ∧ (s.inputs.rst = false → s.phase = .idle → s.inputs.cmdValid = false → eventOf s = .idle)
    ∧ (s.inputs.rst = false → s.phase = .emit → s.inputs.outReady = false → eventOf s = .idle)

/-- 42_frame_wrapper.md R116: FrameByte goes to the sink, ACC is seeded at offset 1 and added to at offsets 2..L-2, IDX
advances or the frame ends; KIND, PW and MB stay. In every state, also one that breaks R36: there the byte sent is the
model's free value (log 4, DESIGN CHOICE), and that IDX = 15 goes to 0 is read from IDX's width and R9 (log 5, DEDUCED),
while R24 says that 12..15 never occur and R28 that IDX does not wrap. -/
def Obligations.TransferStepEffect : Prop :=
  ∀ s : State, s.phase = .emit → s.inputs.rst = false → s.inputs.outReady = true →
    ∃ t, step s = .next t ∧ t.sent = s.sent ++ [frameByte s]
      ∧ t.kind = s.kind ∧ t.pw = s.pw ∧ t.mb = s.mb
      ∧ t.acc = (if s.idx.toNat = 1 then frameType s.kind
          else if 2 ≤ s.idx.toNat ∧ s.idx.toNat ≤ frameLength s.kind - 2
            then BitVec.ofNat 8 ((s.acc.toNat + (frameByte s).toNat) % 256)
          else s.acc)
      ∧ (s.idx.toNat = frameLength s.kind - 1 → t.idx = 0#4 ∧ t.phase = .idle)
      ∧ (s.idx.toNat ≠ frameLength s.kind - 1 → t.phase = .emit ∧ t.idx.toNat = (s.idx.toNat + 1) % 16)

/-- 42_frame_wrapper.md R117: the transfer of the checksum ends the frame; CMD_READY is 1 from the next step on, KIND,
PW, MB and ACC keep their values. -/
def Obligations.ChecksumTransferEndsFrame : Prop :=
  ∀ s : State, s.phase = .emit → s.inputs.rst = false → s.inputs.outReady = true →
    s.idx.toNat = frameLength s.kind - 1 →
    ∃ t, step s = .next t ∧ t.sent = s.sent ++ [s.acc] ∧ t.phase = .idle ∧ t.idx = 0#4 ∧ cmdReady t = true
      ∧ t.kind = s.kind ∧ t.pw = s.pw ∧ t.mb = s.mb ∧ t.acc = s.acc
      ∧ ∀ k : Nat, (∀ e ∈ eventsIn k t, e = .idle) →
        ∃ u, runFor k t = .next u ∧ cmdReady u = true ∧ u.SameBlock t ∧ u.sent = t.sent

/-- 42_frame_wrapper.md R114: no command offered while IDLE, or a sink stall, however long, writes nothing and transfers
nothing. -/
def Obligations.IdleStepsWriteNothing : Prop :=
  ∀ (k : Nat) (s : State),
    (∀ inp ∈ inputsIn k s, inp.rst = false ∧ (s.phase = .idle → inp.cmdValid = false)
      ∧ (s.phase = .emit → inp.outReady = false)) →
    ∃ t, runFor k s = .next t ∧ t.SameBlock s ∧ t.sent = s.sent

/-- 42_frame_wrapper.md R113: a command offered in EMIT is not accepted or recorded; it is accepted in exactly the steps
with CMD_READY = 1 and no reset, with the operands of that step. -/
def Obligations.OfferWhileBusyIsNotAccepted : Prop :=
  ∀ (s : State) (i : Instr),
    (eventOf s = .accept i ↔
      cmdReady s = true ∧ s.inputs.cmdValid = true ∧ s.inputs.rst = false ∧ i = decode s.inputs.cmd)
    ∧ (s.phase = .emit → s.inputs.rst = false →
      cmdReady s = false
        ∧ (s.inputs.outReady = false → ∃ t, step s = .next t ∧ t.SameBlock s ∧ t.sent = s.sent)
        ∧ (s.inputs.outReady = true → step s = .next (transfer s.consume)))

/-- 10_state.md R37: while a frame goes out, CMD_VALID, CMD_OP and the operands have no effect: two states that differ
in them only go on alike. -/
def Obligations.OperandsAreSampledAtAcceptanceOnly : Prop :=
  ∀ (k : Nat) (s s' : State), s.SameBlock s' → s.sent = s'.sent → s.phase = .emit →
    (inputsIn k s).map (fun inp => (inp.rst, inp.outReady)) = (inputsIn k s').map (fun inp => (inp.rst, inp.outReady)) →
    acceptedIn k s = [] → acceptedIn k s' = [] →
    ∃ t t', runFor k s = .next t ∧ runFor k s' = .next t' ∧ t.SameBlock t' ∧ t.sent = t'.sent

/-- 42_frame_wrapper.md R111: while OUT_VALID = 1, OUT_DATA stays until the byte is transferred or a reset comes, however
many steps pass, and the byte then transferred is the one shown. -/
def Obligations.OutputIsStableUntilTransferred : Prop :=
  ∀ (k : Nat) (s : State), outValid s = true → NoReset k s → transfersIn k s = 0 →
    ∃ t, runFor k s = .next t ∧ outValid t = true ∧ outData t = outData s
      ∧ (eventOf t = .transfer → ∃ u b, step t = .next u ∧ outData s = some b ∧ u.sent = s.sent ++ [b])

/-- 10_state.md R39, and what R22 says of PHASE: which element changes in which event. `sent` is the output. -/
def Obligations.WritesHappenOnlyInTheirEvents : Prop :=
  ∀ s : State, ∃ t, step s = .next t
    ∧ (s.phase = .idle → t.phase = .emit → ∃ i, eventOf s = .accept i)
    ∧ (s.phase = .emit → t.phase = .idle →
        eventOf s = .reset ∨ eventOf s = .transfer ∧ s.idx.toNat = frameLength s.kind - 1)
    ∧ (t.kind ≠ s.kind → eventOf s = .reset ∨ ∃ i, eventOf s = .accept i)
    ∧ (t.idx ≠ s.idx → eventOf s = .reset ∨ eventOf s = .transfer ∨ ∃ i, eventOf s = .accept i)
    ∧ (t.pw ≠ s.pw → eventOf s = .reset ∨ ∃ i, eventOf s = .accept i ∧ commandKind i = .ri)
    ∧ (t.mb ≠ s.mb → eventOf s = .reset ∨ ∃ i, eventOf s = .accept i ∧ commandKind i = .msg)
    ∧ (t.acc ≠ s.acc → eventOf s = .reset ∨ (∃ i, eventOf s = .accept i)
        ∨ eventOf s = .transfer ∧ 1 ≤ s.idx.toNat ∧ s.idx.toNat ≤ frameLength s.kind - 2)
    ∧ (t.sent ≠ s.sent → eventOf s = .transfer)
    ∧ (eventOf s = .idle → t.SameBlock s)

/-- 60_exceptions.md R151, 42_frame_wrapper.md R119: from any state, however many steps, no fault and no refusal. -/
def Obligations.NoRunStops : Prop :=
  ∀ (k : Nat) (s : State), ∃ t, runFor k s = .next t

/-! ### Reset -/

/-- The values after reset that 10_state.md R38 tabulates. -/
def Obligations.ResetStateValues : Prop :=
  State.reset.phase = .idle ∧ State.reset.kind = .ri ∧ State.reset.idx = 0#4 ∧ State.reset.pw = 0xFFFFFFFF#32
    ∧ mbBytes State.reset.mb = List.replicate 8 0x00#8 ∧ State.reset.acc = 0x00#8

/-- 70_reset_and_hazards.md R170: a step with RST = 1, whatever else is driven and whatever the state: every element at
its reset value, no byte transferred, no command accepted; more such steps add nothing. -/
def Obligations.ResetStepSetsEveryElement : Prop :=
  ∀ (k : Nat) (s : State), (∀ inp ∈ inputsIn (k + 1) s, inp.rst = true) →
    ∃ t, runFor (k + 1) s = .next t ∧ t.phase = .idle ∧ t.kind = .ri ∧ t.idx = 0#4 ∧ t.pw = 0xFFFFFFFF#32
      ∧ mbBytes t.mb = List.replicate 8 0x00#8 ∧ t.acc = 0x00#8 ∧ t.sent = s.sent
      ∧ acceptedIn (k + 1) s = [] ∧ transfersIn (k + 1) s = 0

/-- 70_reset_and_hazards.md R171: a reset step in EMIT leaves the sink with the first IDX bytes of the frame and no
more, and the block with nothing owed: through whatever steps follow, further resets among them, the block stays IDLE and
sends nothing until it accepts another command. -/
def Obligations.ResetAbandonsFrame : Prop :=
  ∀ s : State, s.phase = .idle → s.inputs.rst = false → s.inputs.cmdValid = true →
    ∃ t, step s = .next t ∧
      ∀ k : Nat, NoReset k t → transfersIn k t < frameLength (commandKind (decode s.inputs.cmd)) →
        ∃ u, runFor k t = .next u ∧ u.phase = .emit ∧ u.idx.toNat = transfersIn k t
          ∧ u.sent = s.sent ++ (commandFrame (decode s.inputs.cmd)).take u.idx.toNat
          ∧ (u.inputs.rst = true → ∃ v, step u = .next v ∧ v.sent = u.sent ∧ v.SameBlock State.reset
            ∧ ∀ m, acceptedIn m v = [] → ∃ w, runFor m v = .next w ∧ w.phase = .idle ∧ w.sent = v.sent)

/-- In the first step after a reset step the block is IDLE with CMD_READY = 1, and a command offered is accepted
(70_reset_and_hazards.md R174); the reset itself sends nothing (R172). -/
def Obligations.BlockAcceptsRightAfterReset : Prop :=
  ∀ s : State, s.inputs.rst = true →
    ∃ t, step s = .next t ∧ cmdReady t = true ∧ outValid t = false ∧ t.sent = s.sent
      ∧ (t.inputs.rst = false → t.inputs.cmdValid = true →
        ∃ u, step t = .next u ∧ exec (decode t.inputs.cmd) t.consume = .next u ∧ outValid u = true)

/-! ### Invariants -/

/-- 10_state.md R36 holds at reset, and so does the accumulator's invariant. -/
def Obligations.ResetStateIsSound : Prop := State.reset.Sound ∧ State.reset.Summed

/-- 10_state.md R36: every step, from every state that keeps the invariants, keeps them; so they hold in every state
reached from the block's reset values, whatever the environment drives. -/
def Obligations.StepKeepsSound : Prop :=
  (∀ s t : State, s.Sound → step s = .next t → t.Sound)
  ∧ ∀ (k : Nat) (s t : State), s.SameBlock State.reset → runFor k s = .next t → t.Sound

/-- The accumulator's invariant: from every state in which ACC is the sum of the bytes sent so far past the preamble
(41_checksum_accumulator.md R101 to R103) and IDX is inside the frame (10_state.md R36), a step leads to such a state. -/
def Obligations.StepKeepsAccumulatorSum : Prop :=
  ∀ s t : State, (s.phase = .emit → s.idx.toNat < frameLength s.kind) → s.Summed → step s = .next t →
    (t.phase = .emit → t.idx.toNat < frameLength t.kind) ∧ t.Summed

/-- 41_checksum_accumulator.md R105 and R107: under the two invariants, the byte at offset L-1 is the sum of the bytes at
offsets 1..L-2 mod 256, which is a fixed part and the payload's sum. -/
def Obligations.ChecksumByteIsClosedForm : Prop :=
  ∀ s : State, s.phase = .emit → s.Summed → s.idx.toNat = frameLength s.kind - 1 →
    (frameByte s).toNat
        = (((List.range (frameLength s.kind - 2)).map fun i => (frameByteAt s (i + 1)).toNat).sum) % 256
      ∧ (s.kind = .ri → (frameByte s).toNat = (0x58 + ((pwBytes s.pw).map BitVec.toNat).sum) % 256)
      ∧ (s.kind = .msg → (frameByte s).toNat = (0x59 + ((mbBytes s.mb).map BitVec.toNat).sum) % 256)

/-! ### Whole runs -/

/-- 42_frame_wrapper.md R118 with 20_memory.md R49: from an IDLE state, with no reset, the output is the concatenation of
the frames of the accepted commands, in acceptance order; what is missing from it is the rest of the last frame. -/
def Obligations.OutputIsConcatenationOfFrames : Prop :=
  ∀ (k : Nat) (s : State), s.phase = .idle → NoReset k s →
    ∃ t, runFor k s = .next t
      ∧ t.sent ++ owed t = s.sent ++ (acceptedIn k s).flatMap commandFrame
      ∧ (t.phase = .idle → t.sent = s.sent ++ (acceptedIn k s).flatMap commandFrame)
      ∧ (t.phase = .emit → ∃ i, (acceptedIn k s).getLast? = some i ∧ owed t <:+ commandFrame i)
      ∧ t.sent.length = s.sent.length + transfersIn k s
      ∧ ∀ i, (commandFrame i).length = frameLength (commandKind i)

/-- Step by step, from a state that keeps the invariants: what is sent and owed together grows by the accepted command's
frame, is cut back to what is sent at a reset, and else stays (42_frame_wrapper.md R118, 70_reset_and_hazards.md R171). -/
def Obligations.StepRefinesFrameQueue : Prop :=
  ∀ s : State, s.Sound → s.Summed →
    ∃ t, step s = .next t
      ∧ (∀ i, eventOf s = .accept i → owed s = [] ∧ owed t = commandFrame i ∧ t.sent = s.sent)
      ∧ (eventOf s = .transfer → ∃ b, owed s = b :: owed t ∧ outData s = some b ∧ t.sent = s.sent ++ [b])
      ∧ (eventOf s = .idle → owed t = owed s ∧ t.sent = s.sent)
      ∧ (eventOf s = .reset → owed t = [] ∧ t.sent = s.sent)

/-- 70_reset_and_hazards.md R179: from an acceptance on, with no reset, the frame ends exactly with its L-th transfer. -/
def Obligations.FrameEndsAfterExactlyItsLength : Prop :=
  ∀ (k : Nat) (s : State), s.Fresh → NoReset k s → acceptedIn k s = [] →
    ∃ t, runFor k s = .next t ∧ transfersIn k s ≤ frameLength s.kind
      ∧ (t.phase = .idle ↔ transfersIn k s = frameLength s.kind)

/-- Termination under a fair sink (70_reset_and_hazards.md R179): once OUT_READY has been 1 in L of the steps after an
acceptance, with no reset, the whole frame has gone out, and PHASE has been IDLE. -/
def Obligations.ReadySinkGetsWholeFrame : Prop :=
  ∀ (k : Nat) (s : State) (i : Instr), eventOf s = .accept i →
    ∃ t, step s = .next t ∧
      ((∀ inp ∈ inputsIn k t, inp.rst = false) →
        frameLength (commandKind i) ≤ (inputsIn k t).countP (·.outReady) →
        ∃ u, runFor k t = .next u ∧ s.sent ++ commandFrame i <+: u.sent
          ∧ ∃ j ≤ k, ∃ v, runFor j t = .next v ∧ v.phase = .idle ∧ v.sent = s.sent ++ commandFrame i)

/-- 70_reset_and_hazards.md R177: a frame takes at least L+1 steps, so frames in a row take at least the sum; and with a
command always offered and the sink always ready it takes exactly L+1. -/
def Obligations.FrameTakesAtLeastLengthPlusOneSteps : Prop :=
  (∀ (k : Nat) (s t : State), s.phase = .idle → NoReset k s → runFor k s = .next t → t.phase = .idle →
    ((acceptedIn k s).map fun i => frameLength (commandKind i) + 1).sum ≤ k)
  ∧ ∀ (s : State) (i : Instr), eventOf s = .accept i →
    (∀ inp ∈ inputsIn (frameLength (commandKind i) + 1) s, inp.rst = false ∧ inp.cmdValid = true ∧ inp.outReady = true) →
    ∃ t, runFor (frameLength (commandKind i) + 1) s = .next t ∧ t.phase = .idle ∧ t.sent = s.sent ++ commandFrame i
      ∧ acceptedIn (frameLength (commandKind i) + 1) s = [i]

/-- A host that holds CMD_VALID for two consecutive steps while IDLE issues one command (70_reset_and_hazards.md R175):
the second step is in EMIT. -/
def Obligations.TwoOffersInARowIssueOneCommand : Prop :=
  ∀ s : State, s.phase = .idle → (∀ inp ∈ inputsIn 2 s, inp.rst = false ∧ inp.cmdValid = true) →
    acceptedIn 2 s = [decode s.inputs.cmd]

/-- What is left of earlier frames, and the reset values of KIND, PW, MB and ACC, cannot be observed (10_state.md R38,
R35): two IDLE states with the same environment show the same ports and send the same bytes for ever. -/
def Obligations.PayloadOfIdleStateIsUnobservable : Prop :=
  ∀ (k : Nat) (s s' : State), s.phase = .idle → s'.phase = .idle → s.SameEnvironment s' →
    ∃ t t', runFor k s = .next t ∧ runFor k s' = .next t' ∧ t.sent = t'.sent ∧ cmdReady t = cmdReady t'
      ∧ outValid t = outValid t' ∧ outData t = outData t'

/-! ### The assembler -/

/-- 30_encoding.md R73: a command line with a literal of 2^32 or more is refused; else every literal goes to its port
unchanged, ports that the command does not list (R62) are 0, and byte i of a text goes to lane i, with 0x00 past its end
and no byte past the sixth. ENC_RI_SENTINEL has no literal and always assembles, with every port 0. -/
def Obligations.AssemblerChecksLiteralsAndCutsText : Prop :=
  (∀ pos lap secs hunds started chn : Nat,
    (2 ^ 32 ≤ pos ∨ 2 ^ 32 ≤ lap ∨ 2 ^ 32 ≤ secs ∨ 2 ^ 32 ≤ hunds ∨ 2 ^ 32 ≤ started ∨ 2 ^ 32 ≤ chn →
      assemble (.encRi pos lap secs hunds started chn) = .error .literalTooLarge)
    ∧ (pos < 2 ^ 32 → lap < 2 ^ 32 → secs < 2 ^ 32 → hunds < 2 ^ 32 → started < 2 ^ 32 → chn < 2 ^ 32 →
      ∃ c, (assemble (.encRi pos lap secs hunds started chn)).map encode = .ok c ∧ c.op = 0b00#2 ∧ c.a0.toNat = pos
        ∧ c.a1.toNat = lap ∧ c.a2.toNat = secs ∧ c.a3.toNat = hunds ∧ c.a4.toNat = started ∧ c.a5.toNat = chn
        ∧ lanes c.txt = List.replicate 6 0x00#8))
  ∧ (∃ c, (assemble .encRiSentinel).map encode = .ok c ∧ c.op = 0b01#2 ∧ c.a0 = 0 ∧ c.a1 = 0 ∧ c.a2 = 0 ∧ c.a3 = 0
    ∧ c.a4 = 0 ∧ c.a5 = 0 ∧ lanes c.txt = List.replicate 6 0x00#8)
  ∧ (∀ (text : List Byte) (seq chn : Nat),
    (2 ^ 32 ≤ seq ∨ 2 ^ 32 ≤ chn → assemble (.encMsg text seq chn) = .error .literalTooLarge)
    ∧ (seq < 2 ^ 32 → chn < 2 ^ 32 →
      ∃ c, (assemble (.encMsg text seq chn)).map encode = .ok c ∧ c.op = 0b10#2 ∧ c.a0.toNat = seq ∧ c.a1.toNat = chn
        ∧ lanes c.txt = text.take 6 ++ List.replicate (6 - text.length) 0x00#8 ∧ c.a2 = 0 ∧ c.a3 = 0 ∧ c.a4 = 0 ∧ c.a5 = 0))
  ∧ ∀ (text : List Byte) (seq : Nat),
    (2 ^ 32 ≤ seq → assemble (.encMsgBcast text seq) = .error .literalTooLarge)
    ∧ (seq < 2 ^ 32 →
      ∃ c, (assemble (.encMsgBcast text seq)).map encode = .ok c ∧ c.op = 0b11#2 ∧ c.a0.toNat = seq ∧ c.a1 = 0
        ∧ lanes c.txt = text.take 6 ++ List.replicate (6 - text.length) 0x00#8 ∧ c.a2 = 0 ∧ c.a3 = 0 ∧ c.a4 = 0 ∧ c.a5 = 0)

/-- 30_encoding.md R74: the expansions of the source's two operations. -/
def Obligations.PseudoInstructionsExpand : Prop :=
  (∀ pos lap secs hunds started chn : Nat,
    expand (.encodeRaceInfo [pos, lap, secs, hunds, started, chn]) = .ok (.encRi pos lap secs hunds started chn))
  ∧ (∀ values : List Nat, values.length < 6 → expand (.encodeRaceInfo values) = .ok .encRiSentinel)
  ∧ (∀ (text : List Byte) (seq chn : Nat),
    expand (.encodeRaceMsg text seq none) = .ok (.encMsgBcast text seq)
    ∧ expand (.encodeRaceMsg text seq (some chn)) = .ok (.encMsg text seq chn))
  ∧ ∀ (text : List Byte) (s : Nat), s < 2 ^ 32 →
    (assemble (.encMsg text s 15)).map commandFrame = (assemble (.encMsgBcast text s)).map commandFrame
end

