-- ==== Sys2Proof/Laws/Frame.lean ====
section
/-! SUPPORT. The small lemmas of the frame's functions: lengths, and how one kind's frame ignores the other's payload. -/

namespace Sys2Proof.Machine

@[simp] theorem frameLength_ri : frameLength .ri = 8 := rfl
@[simp] theorem frameLength_msg : frameLength .msg = 12 := rfl
@[simp] theorem frameType_ri : frameType .ri = 0x5A#8 := rfl
@[simp] theorem frameType_msg : frameType .msg = 0x5B#8 := rfl

theorem length_frameBytes (k : Kind) (w : Word) (m : MsgPayload) : (frameBytes k w m).length = frameLength k := by
  cases k <;> rfl

theorem length_commandFrame (i : Instr) : (commandFrame i).length = frameLength (commandKind i) := by
  cases i <;> rfl

/-- A race-info frame does not read MB (10_state.md R26). -/
theorem frameBytes_ri (w : Word) (m m' : MsgPayload) : frameBytes .ri w m = frameBytes .ri w m' := rfl

/-- A race-message frame does not read PW (10_state.md R25). -/
theorem frameBytes_msg (w w' : Word) (m : MsgPayload) : frameBytes .msg w m = frameBytes .msg w' m := rfl

/-- The checksum of a list that grows by a byte: ADD (41_checksum_accumulator.md R100). -/
theorem checksum_append (l : List Byte) (b : Byte) : checksum (l ++ [b]) = checksum l + b := by
  simp [checksum, BitVec.ofNat_add]

theorem checksum_nil : checksum [] = 0x00#8 := rfl

/-- Inside a frame, before the checksum, FrameByte is the byte of the closed form at that offset. -/
theorem frameByteAt_eq_frameBytes (s : State) (i : Nat) (h : i < frameLength s.kind - 1) :
    (frameBytes s.kind s.pw s.mb)[i]? = some (frameByteAt s i) := by
  unfold frameByteAt
  cases hk : s.kind <;> rw [hk] at h <;> simp only [frameLength_ri, frameLength_msg] at h ⊢ <;>
    interval_cases i <;> rfl

end Sys2Proof.Machine
end

