-- ==== Sys2Proof/Laws/PerInstr.lean ====
section
/-! SUPPORT. The statement that is made of each command by itself, as syntax: on the ports, encoding and decoding agree
(30_encoding.md R61, R62), and the ports that the command does not list are driven to 0 (R73). -/

namespace Sys2Proof.Laws.PortRoundTrip

/-- The ports of a command decode to it, and only ports that R62 lists for it carry a value. -/
def Statement (i : Instr) : Prop :=
  decode (encode i) = i ∧
    match i with
    | .encRi _ _ _ _ _ _ => (encode i).txt = noText
    | .encRiSentinel => encode i = ⟨0b01#2, 0, 0, 0, 0, 0, 0, noText⟩
    | .encMsg _ _ _ => (encode i).a2 = 0 ∧ (encode i).a3 = 0 ∧ (encode i).a4 = 0 ∧ (encode i).a5 = 0
    | .encMsgBcast _ _ =>
      (encode i).a1 = 0 ∧ (encode i).a2 = 0 ∧ (encode i).a3 = 0 ∧ (encode i).a4 = 0 ∧ (encode i).a5 = 0

/-- The two bits of CMD_OP settle the command (30_encoding.md R60). -/
theorem decode_of_bits {c : CommandPorts} (k v : Bool) (hk : kindSel c.op = k) (hv : variant c.op = v) :
    decode c = commandOf k v c := by
  rw [decode, hk, hv]

theorem encRi (pos lap secs hunds started chn : Operand) : Statement (.encRi pos lap secs hunds started chn) :=
  ⟨decode_of_bits false false (by decide : kindSel 0b00#2 = false) (by decide : variant 0b00#2 = false), rfl⟩

theorem encRiSentinel : Statement .encRiSentinel :=
  ⟨decode_of_bits false true (by decide : kindSel 0b01#2 = false) (by decide : variant 0b01#2 = true), rfl⟩

theorem encMsg (seq chn : Operand) (txt : Text) : Statement (.encMsg seq chn txt) :=
  ⟨decode_of_bits true false (by decide : kindSel 0b10#2 = true) (by decide : variant 0b10#2 = false), rfl, rfl, rfl, rfl⟩

theorem encMsgBcast (seq : Operand) (txt : Text) : Statement (.encMsgBcast seq txt) :=
  ⟨decode_of_bits true true (by decide : kindSel 0b11#2 = true) (by decide : variant 0b11#2 = true), rfl, rfl, rfl, rfl, rfl⟩

end Sys2Proof.Laws.PortRoundTrip
end

