-- ==== Sys2Proof/Laws/State.lean ====
section
/-! SUPPORT. One lemma per field per named update of the state, so that no proof unfolds a record update. -/

namespace Sys2Proof.Machine

@[simp] theorem State.setPw_phase (s : State) (w : Word) : (s.setPw w).phase = s.phase := rfl
@[simp] theorem State.setPw_kind (s : State) (w : Word) : (s.setPw w).kind = s.kind := rfl
@[simp] theorem State.setPw_idx (s : State) (w : Word) : (s.setPw w).idx = s.idx := rfl
@[simp] theorem State.setPw_pw (s : State) (w : Word) : (s.setPw w).pw = w := rfl
@[simp] theorem State.setPw_mb (s : State) (w : Word) : (s.setPw w).mb = s.mb := rfl
@[simp] theorem State.setPw_acc (s : State) (w : Word) : (s.setPw w).acc = s.acc := rfl
@[simp] theorem State.setPw_schedule (s : State) (w : Word) : (s.setPw w).schedule = s.schedule := rfl
@[simp] theorem State.setPw_tick (s : State) (w : Word) : (s.setPw w).tick = s.tick := rfl
@[simp] theorem State.setPw_sent (s : State) (w : Word) : (s.setPw w).sent = s.sent := rfl

@[simp] theorem State.setMb_phase (s : State) (m : MsgPayload) : (s.setMb m).phase = s.phase := rfl
@[simp] theorem State.setMb_kind (s : State) (m : MsgPayload) : (s.setMb m).kind = s.kind := rfl
@[simp] theorem State.setMb_idx (s : State) (m : MsgPayload) : (s.setMb m).idx = s.idx := rfl
@[simp] theorem State.setMb_pw (s : State) (m : MsgPayload) : (s.setMb m).pw = s.pw := rfl
@[simp] theorem State.setMb_mb (s : State) (m : MsgPayload) : (s.setMb m).mb = m := rfl
@[simp] theorem State.setMb_acc (s : State) (m : MsgPayload) : (s.setMb m).acc = s.acc := rfl
@[simp] theorem State.setMb_schedule (s : State) (m : MsgPayload) : (s.setMb m).schedule = s.schedule := rfl
@[simp] theorem State.setMb_tick (s : State) (m : MsgPayload) : (s.setMb m).tick = s.tick := rfl
@[simp] theorem State.setMb_sent (s : State) (m : MsgPayload) : (s.setMb m).sent = s.sent := rfl

@[simp] theorem State.setAcc_phase (s : State) (b : Byte) : (s.setAcc b).phase = s.phase := rfl
@[simp] theorem State.setAcc_kind (s : State) (b : Byte) : (s.setAcc b).kind = s.kind := rfl
@[simp] theorem State.setAcc_idx (s : State) (b : Byte) : (s.setAcc b).idx = s.idx := rfl
@[simp] theorem State.setAcc_pw (s : State) (b : Byte) : (s.setAcc b).pw = s.pw := rfl
@[simp] theorem State.setAcc_mb (s : State) (b : Byte) : (s.setAcc b).mb = s.mb := rfl
@[simp] theorem State.setAcc_acc (s : State) (b : Byte) : (s.setAcc b).acc = b := rfl
@[simp] theorem State.setAcc_schedule (s : State) (b : Byte) : (s.setAcc b).schedule = s.schedule := rfl
@[simp] theorem State.setAcc_tick (s : State) (b : Byte) : (s.setAcc b).tick = s.tick := rfl
@[simp] theorem State.setAcc_sent (s : State) (b : Byte) : (s.setAcc b).sent = s.sent := rfl

@[simp] theorem State.startFrame_phase (s : State) (k : Kind) : (s.startFrame k).phase = .emit := rfl
@[simp] theorem State.startFrame_kind (s : State) (k : Kind) : (s.startFrame k).kind = k := rfl
@[simp] theorem State.startFrame_idx (s : State) (k : Kind) : (s.startFrame k).idx = 0#4 := rfl
@[simp] theorem State.startFrame_pw (s : State) (k : Kind) : (s.startFrame k).pw = s.pw := rfl
@[simp] theorem State.startFrame_mb (s : State) (k : Kind) : (s.startFrame k).mb = s.mb := rfl
@[simp] theorem State.startFrame_acc (s : State) (k : Kind) : (s.startFrame k).acc = s.acc := rfl
@[simp] theorem State.startFrame_schedule (s : State) (k : Kind) : (s.startFrame k).schedule = s.schedule := rfl
@[simp] theorem State.startFrame_tick (s : State) (k : Kind) : (s.startFrame k).tick = s.tick := rfl
@[simp] theorem State.startFrame_sent (s : State) (k : Kind) : (s.startFrame k).sent = s.sent := rfl

@[simp] theorem State.endFrame_phase (s : State) : (s.endFrame).phase = .idle := rfl
@[simp] theorem State.endFrame_kind (s : State) : (s.endFrame).kind = s.kind := rfl
@[simp] theorem State.endFrame_idx (s : State) : (s.endFrame).idx = 0#4 := rfl
@[simp] theorem State.endFrame_pw (s : State) : (s.endFrame).pw = s.pw := rfl
@[simp] theorem State.endFrame_mb (s : State) : (s.endFrame).mb = s.mb := rfl
@[simp] theorem State.endFrame_acc (s : State) : (s.endFrame).acc = s.acc := rfl
@[simp] theorem State.endFrame_schedule (s : State) : (s.endFrame).schedule = s.schedule := rfl
@[simp] theorem State.endFrame_tick (s : State) : (s.endFrame).tick = s.tick := rfl
@[simp] theorem State.endFrame_sent (s : State) : (s.endFrame).sent = s.sent := rfl

@[simp] theorem State.nextOffset_phase (s : State) : (s.nextOffset).phase = s.phase := rfl
@[simp] theorem State.nextOffset_kind (s : State) : (s.nextOffset).kind = s.kind := rfl
@[simp] theorem State.nextOffset_idx (s : State) : (s.nextOffset).idx = s.idx + 1#4 := rfl
@[simp] theorem State.nextOffset_pw (s : State) : (s.nextOffset).pw = s.pw := rfl
@[simp] theorem State.nextOffset_mb (s : State) : (s.nextOffset).mb = s.mb := rfl
@[simp] theorem State.nextOffset_acc (s : State) : (s.nextOffset).acc = s.acc := rfl
@[simp] theorem State.nextOffset_schedule (s : State) : (s.nextOffset).schedule = s.schedule := rfl
@[simp] theorem State.nextOffset_tick (s : State) : (s.nextOffset).tick = s.tick := rfl
@[simp] theorem State.nextOffset_sent (s : State) : (s.nextOffset).sent = s.sent := rfl

@[simp] theorem State.emitByte_phase (s : State) (b : Byte) : (s.emitByte b).phase = s.phase := rfl
@[simp] theorem State.emitByte_kind (s : State) (b : Byte) : (s.emitByte b).kind = s.kind := rfl
@[simp] theorem State.emitByte_idx (s : State) (b : Byte) : (s.emitByte b).idx = s.idx := rfl
@[simp] theorem State.emitByte_pw (s : State) (b : Byte) : (s.emitByte b).pw = s.pw := rfl
@[simp] theorem State.emitByte_mb (s : State) (b : Byte) : (s.emitByte b).mb = s.mb := rfl
@[simp] theorem State.emitByte_acc (s : State) (b : Byte) : (s.emitByte b).acc = s.acc := rfl
@[simp] theorem State.emitByte_schedule (s : State) (b : Byte) : (s.emitByte b).schedule = s.schedule := rfl
@[simp] theorem State.emitByte_tick (s : State) (b : Byte) : (s.emitByte b).tick = s.tick := rfl
@[simp] theorem State.emitByte_sent (s : State) (b : Byte) : (s.emitByte b).sent = s.sent ++ [b] := rfl

@[simp] theorem resetBlock_phase (s : State) : (resetBlock s).phase = State.reset.phase := rfl
@[simp] theorem resetBlock_kind (s : State) : (resetBlock s).kind = State.reset.kind := rfl
@[simp] theorem resetBlock_idx (s : State) : (resetBlock s).idx = State.reset.idx := rfl
@[simp] theorem resetBlock_pw (s : State) : (resetBlock s).pw = State.reset.pw := rfl
@[simp] theorem resetBlock_mb (s : State) : (resetBlock s).mb = State.reset.mb := rfl
@[simp] theorem resetBlock_acc (s : State) : (resetBlock s).acc = State.reset.acc := rfl
@[simp] theorem resetBlock_schedule (s : State) : (resetBlock s).schedule = s.schedule := rfl
@[simp] theorem resetBlock_tick (s : State) : (resetBlock s).tick = s.tick := rfl
@[simp] theorem resetBlock_sent (s : State) : (resetBlock s).sent = s.sent := rfl

@[simp] theorem State.consume_phase (s : State) : s.consume.phase = s.phase := by
  unfold State.consume; split <;> rfl
@[simp] theorem State.consume_kind (s : State) : s.consume.kind = s.kind := by
  unfold State.consume; split <;> rfl
@[simp] theorem State.consume_idx (s : State) : s.consume.idx = s.idx := by
  unfold State.consume; split <;> rfl
@[simp] theorem State.consume_pw (s : State) : s.consume.pw = s.pw := by
  unfold State.consume; split <;> rfl
@[simp] theorem State.consume_mb (s : State) : s.consume.mb = s.mb := by
  unfold State.consume; split <;> rfl
@[simp] theorem State.consume_acc (s : State) : s.consume.acc = s.acc := by
  unfold State.consume; split <;> rfl
@[simp] theorem State.consume_sent (s : State) : s.consume.sent = s.sent := by
  unfold State.consume; split <;> rfl

/-! ### The inputs of a step -/

theorem State.inputs_cons (s : State) (inp : Inputs) (rest : List Inputs) (h : s.schedule = inp :: rest) :
    s.inputs = inp := by
  simp [State.inputs, h]

theorem State.inputs_nil (s : State) (h : s.schedule = []) : s.inputs = Config.freeInputs s.tick := by
  simp [State.inputs, h]

theorem State.consume_cons (s : State) (inp : Inputs) (rest : List Inputs) (h : s.schedule = inp :: rest) :
    s.consume = { s with schedule := rest } := by
  simp [State.consume, h]

/-- An offer's next inputs are the offer, and with them used up only PHASE differs from before. -/
theorem offer_inputs (c : CommandPorts) (s : State) : (offer c s).inputs = ⟨false, true, c, false⟩ := rfl

theorem offer_consume (c : CommandPorts) (s : State) : (offer c s).consume = { s with phase := .idle } := rfl

/-! ### Reset values (10_state.md R38) -/

@[simp] theorem reset_phase : State.reset.phase = .idle := rfl
@[simp] theorem reset_kind : State.reset.kind = .ri := rfl
@[simp] theorem reset_idx : State.reset.idx = 0#4 := rfl
@[simp] theorem reset_pw : State.reset.pw = 0xFFFFFFFF#32 := rfl
@[simp] theorem reset_acc : State.reset.acc = 0x00#8 := rfl

end Sys2Proof.Machine
end

