-- ==== Sys2Proof/Laws/Step.lean ====
section
/-! SUPPORT. What each shared operation, each meaning and the step can do, said once. -/

namespace Sys2Proof.Machine

/-! ### The commands -/

/-- An acceptance always answers: the frame of the command's kind is started, with the payload that is its own. -/
theorem exec_next (i : Instr) (s : State) :
    ∃ t, exec i s = .next t ∧ t.phase = .emit ∧ t.kind = commandKind i ∧ t.idx = 0#4 ∧ t.acc = 0x00#8
      ∧ t.schedule = s.schedule ∧ t.tick = s.tick ∧ t.sent = s.sent
      ∧ (commandKind i = .ri → t.mb = s.mb) ∧ (commandKind i = .msg → t.pw = s.pw)
      ∧ frameBytes t.kind t.pw t.mb = commandFrame i := by
  cases i <;> exact ⟨_, rfl, rfl, rfl, rfl, rfl, rfl, rfl, rfl, by simp [commandKind, beginFrame, accClear],
    by simp [commandKind, beginFrame, accClear], rfl⟩

/-! ### The transfer -/

/-- The accumulator's operation of an offset writes ACC and nothing else (41_checksum_accumulator.md R103). -/
theorem accumulate_spec (b : Byte) (s : State) :
    accumulate b s = s.setAcc (if s.idx.toNat = 1 then frameType s.kind
      else if 2 ≤ s.idx.toNat ∧ s.idx.toNat ≤ frameLength s.kind - 2 then s.acc + b else s.acc) := by
  unfold accumulate
  split_ifs <;> rfl

/-- The sequencer's move writes IDX and PHASE and nothing else (42_frame_wrapper.md R116, R117). -/
theorem advance_spec (s : State) :
    advance s = { s with
      idx := if s.idx.toNat = frameLength s.kind - 1 then 0#4 else s.idx + 1#4
      phase := if s.idx.toNat = frameLength s.kind - 1 then .idle else s.phase } := by
  unfold advance
  split_ifs <;> rfl

/-- A transfer in every state: one byte out, the accumulator's operation of the offset, and the sequencer's move. -/
theorem transfer_spec (s : State) :
    (transfer s).sent = s.sent ++ [frameByte s] ∧ (transfer s).kind = s.kind ∧ (transfer s).pw = s.pw
      ∧ (transfer s).mb = s.mb ∧ (transfer s).schedule = s.schedule ∧ (transfer s).tick = s.tick
      ∧ (transfer s).acc = (if s.idx.toNat = 1 then frameType s.kind
          else if 2 ≤ s.idx.toNat ∧ s.idx.toNat ≤ frameLength s.kind - 2 then s.acc + frameByte s else s.acc)
      ∧ (transfer s).idx = (if s.idx.toNat = frameLength s.kind - 1 then 0#4 else s.idx + 1#4)
      ∧ (transfer s).phase = (if s.idx.toNat = frameLength s.kind - 1 then .idle else s.phase) := by
  rw [transfer, accumulate_spec, advance_spec]
  exact ⟨rfl, rfl, rfl, rfl, rfl, rfl, rfl, rfl, rfl⟩

/-! ### The step -/

theorem frameByte_consume (s : State) : frameByte s.consume = frameByte s := by
  simp [frameByte, frameByteAt]

theorem eventOf_eq_reset {s : State} : eventOf s = .reset ↔ s.inputs.rst = true := by
  unfold eventOf selectEvent
  split_ifs <;> simp_all

theorem eventOf_eq_accept {s : State} {i : Instr} : eventOf s = .accept i ↔
    s.inputs.rst = false ∧ s.phase = .idle ∧ s.inputs.cmdValid = true ∧ i = decode s.inputs.cmd := by
  unfold eventOf selectEvent
  split_ifs with h₁ h₂ h₃
  · simp [h₁]
  · simpa [h₁, h₂] using eq_comm
  · exact ⟨nofun, fun h => absurd ⟨h.2.1, h.2.2.1⟩ h₂⟩
  · exact ⟨nofun, fun h => absurd ⟨h.2.1, h.2.2.1⟩ h₂⟩

theorem eventOf_eq_transfer {s : State} : eventOf s = .transfer ↔
    s.inputs.rst = false ∧ s.phase = .emit ∧ s.inputs.outReady = true := by
  unfold eventOf selectEvent
  split_ifs <;> simp_all

theorem eventOf_eq_idle {s : State} : eventOf s = .idle ↔
    s.inputs.rst = false ∧ (s.phase = .idle → s.inputs.cmdValid = false) ∧ (s.phase = .emit → s.inputs.outReady = false) := by
  unfold eventOf selectEvent
  cases s.phase <;> split_ifs <;> simp_all

theorem step_reset {s : State} (h : eventOf s = .reset) : step s = .next (resetBlock s.consume) := by
  simp [step, h]

theorem step_accept {s : State} {i : Instr} (h : eventOf s = .accept i) : step s = exec i s.consume := by
  simp [step, h]

theorem step_transfer {s : State} (h : eventOf s = .transfer) : step s = .next (transfer s.consume) := by
  simp [step, h]

theorem step_idle {s : State} (h : eventOf s = .idle) : step s = .next s.consume := by
  simp [step, h]

/-- Whatever the event, only this step's inputs are used up. -/
theorem step_environment {s t : State} (h : step s = .next t) :
    t.schedule = s.consume.schedule ∧ t.tick = s.consume.tick := by
  cases he : eventOf s with
  | reset => rw [step_reset he] at h; cases h; exact ⟨rfl, rfl⟩
  | accept i =>
    rw [step_accept he] at h
    obtain ⟨u, hu, -, -, -, -, hs, ht, -⟩ := exec_next i s.consume
    rw [hu] at h; cases h; exact ⟨hs, ht⟩
  | transfer =>
    rw [step_transfer he] at h; cases h
    exact ⟨(transfer_spec _).2.2.2.2.1, (transfer_spec _).2.2.2.2.2.1⟩
  | idle => rw [step_idle he] at h; cases h; exact ⟨rfl, rfl⟩

end Sys2Proof.Machine
end

