-- ==== Sys2Proof/Laws/Run.lean ====
section
/-! SUPPORT. Runs of several steps: how a run, its events and its inputs unfold by one step. -/

namespace Sys2Proof.Machine

/-- Each event's outcome is a next state. -/
theorem step_next (s : State) : ∃ t, step s = .next t := by
  cases he : eventOf s with
  | reset => exact ⟨_, step_reset he⟩
  | accept i =>
    rw [step_accept he]
    obtain ⟨t, h, -⟩ := exec_next i s.consume
    exact ⟨t, h⟩
  | transfer => exact ⟨_, step_transfer he⟩
  | idle => exact ⟨_, step_idle he⟩

theorem runFor_zero (s : State) : runFor 0 s = .next s := rfl

theorem runFor_succ {k : Nat} {s t : State} (h : step s = .next t) : runFor (k + 1) s = runFor k t := by
  have h' : Sys2Proof.core.step s = .next t := h
  simp only [runFor, Host.Core.run, h']
  rfl

theorem eventsIn_succ {k : Nat} {s t : State} (h : step s = .next t) :
    eventsIn (k + 1) s = eventOf s :: eventsIn k t := by
  simp only [eventsIn, h]

/-- The inputs of a run do not depend on the block: a state with the same environment meets the same ones. -/
theorem inputs_congr {s t : State} (hs : s.schedule = t.schedule) (ht : s.tick = t.tick) : s.inputs = t.inputs := by
  simp [State.inputs, hs, ht]

theorem consume_environment_congr {s t : State} (hs : s.schedule = t.schedule) (ht : s.tick = t.tick) :
    s.consume.schedule = t.consume.schedule ∧ s.consume.tick = t.consume.tick := by
  unfold State.consume
  rw [← hs]
  split <;> simp [hs, ht]

theorem inputsIn_congr (k : Nat) {s t : State} (hs : s.schedule = t.schedule) (ht : s.tick = t.tick) :
    inputsIn k s = inputsIn k t := by
  induction k generalizing s t with
  | zero => rfl
  | succ k ih =>
    obtain ⟨h₁, h₂⟩ := consume_environment_congr hs ht
    rw [inputsIn, inputsIn, inputs_congr hs ht, ih h₁ h₂]

theorem inputsIn_succ {k : Nat} {s t : State} (h : step s = .next t) :
    inputsIn (k + 1) s = s.inputs :: inputsIn k t := by
  obtain ⟨h₁, h₂⟩ := step_environment h
  rw [inputsIn, inputsIn_congr k h₁ h₂]

end Sys2Proof.Machine
end

