-- ==== Sys2Proof/Tests/Slice0.lean ====
section
/-! SUPPORT. The model's own tests: expected values are those of 95_test_vectors.md (the id stands in each docstring) or
worked out by hand from a rule; then, for each statement with hypotheses, a witness that meets all of them together. -/

namespace Sys2Proof.Tests

open Sys2Proof.Machine

/-! ### Helpers -/

/-- Inputs of a step in which nothing is driven. -/
def quiet : Inputs := ⟨false, false, ⟨0#2, 0, 0, 0, 0, 0, 0, noText⟩, false⟩

/-- Inputs of a step in which the sink is ready. -/
def ready : Inputs := { quiet with outReady := true }

/-- Inputs of a step with RST = 1, a command offered and the sink ready. -/
def resetting : Inputs := { ready with rst := true, cmdValid := true }

/-- Inputs of a step in which the host offers a command. -/
def offering (i : Instr) : Inputs := { quiet with cmdValid := true, cmd := encode i }

/-- The state after reset with these inputs to come. -/
def start (ins : List Inputs) : State := { State.reset with schedule := ins }

/-- A state in the middle of a frame. -/
def emitting (k : Kind) (idx : BitVec 4) (acc : Byte) (ins : List Inputs) : State :=
  { start ins with phase := .emit, kind := k, idx := idx, acc := acc }

/-- The state after one step. -/
def after (s : State) : State :=
  match step s with
  | .next t => t
  | .fault _ => s
  | .refused _ => s

/-- "HELLO" and "GO" on the text lanes. -/
def hello : Text := ⟨0x48#8, 0x45#8, 0x4C#8, 0x4C#8, 0x4F#8, 0x00#8⟩
def go : Text := ⟨0x47#8, 0x4F#8, 0x00#8, 0x00#8, 0x00#8, 0x00#8⟩

/-! ### Decoding (30_encoding.md R61, R62): one word per command, written out from the spec's CMD_OP -/

/-- 0b00 is ENC_RI; bits 2.. are A0, here 1. -/
theorem test_decode_enc_ri : decodeTableWord 8 0b100 = some (.encRi 1 0 0 0 0 0) := by decide

/-- 0b01 is ENC_RI_SENTINEL, whatever stands on A0. -/
theorem test_decode_enc_ri_sentinel : decodeTableWord 8 0b11111101 = some .encRiSentinel := by decide

/-- 0b10 is ENC_MSG with seq_id on A0 and chn_idx on A1: seq 5, channel 9. -/
theorem test_decode_enc_msg :
    decodeTableWord 40 0b10010000000000000000000000000000010110 = some (.encMsg 5 9 noText) := by decide

/-- 0b11 is ENC_MSG_BCAST with seq_id on A0 and the text on TXT0.., here TXT0 = 0x41 at bit 194. -/
theorem test_decode_enc_msg_bcast :
    decodeTableWord 248 (0x41 * 2 ^ 194 + 0b1011) = some (.encMsgBcast 2 ⟨0x41#8, 0, 0, 0, 0, 0⟩) := by decide

/-- The first step after `withFetchWord` runs the word's command, from reset and in the middle of a frame. -/
theorem test_withFetchWord_runs :
    (after (State.reset.withFetchWord 8 0b01)).kind = .ri ∧ (after (State.reset.withFetchWord 8 0b01)).phase = .emit
      ∧ (after ((emitting .ri 3#4 0#8 []).withFetchWord 8 0b11)).kind = .msg := by decide

/-! ### Well-formedness: each check refuses an ill-formed term -/

theorem smoke_enc_ri_literals :
    (AsmCommand.encRi (2 ^ 32) 0 0 0 0 0).wf = false ∧ (AsmCommand.encRi 0 (2 ^ 32) 0 0 0 0).wf = false
      ∧ (AsmCommand.encRi 0 0 (2 ^ 32) 0 0 0).wf = false ∧ (AsmCommand.encRi 0 0 0 (2 ^ 32) 0 0).wf = false
      ∧ (AsmCommand.encRi 0 0 0 0 (2 ^ 32) 0).wf = false ∧ (AsmCommand.encRi 0 0 0 0 0 (2 ^ 32)).wf = false
      ∧ (AsmCommand.encRi (2 ^ 32 - 1) 0 0 0 0 0).wf = true := by decide

theorem smoke_enc_msg_literals :
    (AsmCommand.encMsg [] (2 ^ 32) 0).wf = false ∧ (AsmCommand.encMsg [] 0 (2 ^ 32)).wf = false
      ∧ (AsmCommand.encMsgBcast [] (2 ^ 32)).wf = false ∧ AsmCommand.encRiSentinel.wf = true := by decide

theorem smoke_source_call :
    (SourceCall.encodeRaceInfo [1, 2, 3, 4, 5, 6, 7]).wf = false ∧ (SourceCall.encodeRaceInfo [1, 2, 3]).wf = true
      ∧ expand (.encodeRaceInfo [1, 2, 3, 4, 5, 6, 7]) = .error .tooManyValues := ⟨rfl, rfl, rfl⟩

/-! ### The packer -/

/-- L2-P1, L2-P13: in-range fields that span bytes. -/
theorem test_packRI_fields :
    packRI 3 5 42 99 1 9 = 0x013C752B#32 ∧ packRI 2 3 59 98 0 4 = 0x008C5D9A#32 := by decide

/-- L2-P10, L2-P11, L2-P12: operands past their ranges. -/
theorem test_packRI_truncates :
    packRI 8 16 64 128 2 16 = 0#32 ∧ packRI 9 17 65 129 3 17 = 0x00302089#32
      ∧ packRI 0xFFFFFFFF 0xFFFFFFFF 0xFFFFFFFF 0xFFFFFFFF 0xFFFFFFFF 0xFFFFFFFF = 0x01FFFFFF#32 := by decide

/-- L2-F1, L2-F4, L2-F5, L2-F7. -/
theorem test_packFlags :
    packFlags 2 15 = 0x7A#8 ∧ packFlags 1 3 = 0x19#8 ∧ packFlags 8 0x1F = 0x78#8 ∧ packFlags 7 15 = 0x7F#8 := by decide

/-- L2-T4, L2-T5, L2-T2. -/
theorem test_copyText :
    lanes (copyText ⟨0x48#8, 0x49#8, 0x00#8, 0x58#8, 0x59#8, 0x5A#8⟩) = [0x48#8, 0x49#8, 0x00#8, 0x00#8, 0x00#8, 0x00#8]
      ∧ lanes (copyText ⟨0x00#8, 0x41#8, 0x41#8, 0x41#8, 0x41#8, 0x41#8⟩) = List.replicate 6 0x00#8
      ∧ lanes (copyText ⟨0x41#8, 0x42#8, 0x43#8, 0x44#8, 0x45#8, 0x46#8⟩)
        = [0x41#8, 0x42#8, 0x43#8, 0x44#8, 0x45#8, 0x46#8] := by decide

/-! ### Frames in closed form -/

/-- L2-P1, L2-P14. -/
theorem test_frame_enc_ri :
    commandFrame (.encRi 3 5 42 99 1 9) = [0xFC#8, 0x5A#8, 0x2B#8, 0x75#8, 0x3C#8, 0x01#8, 0xFE#8, 0x35#8]
      ∧ commandFrame (.encRi 4 15 1 0 0 0) = [0xFC#8, 0x5A#8, 0xFC#8, 0x00#8, 0x00#8, 0x00#8, 0xFE#8, 0x54#8] := by decide

/-- L2-S1. -/
theorem test_frame_enc_ri_sentinel :
    commandFrame .encRiSentinel = [0xFC#8, 0x5A#8, 0xFF#8, 0xFF#8, 0xFF#8, 0xFF#8, 0xFE#8, 0x54#8] := by decide

/-- L2-C3. -/
theorem test_frame_enc_msg :
    commandFrame (.encMsg 5 9 go)
      = [0xFC#8, 0x5B#8, 0x4D#8, 0x47#8, 0x4F#8, 0x00#8, 0x00#8, 0x00#8, 0x00#8, 0x00#8, 0xFE#8, 0x3C#8] := by decide

/-- L2-C1. -/
theorem test_frame_enc_msg_bcast :
    commandFrame (.encMsgBcast 2 hello)
      = [0xFC#8, 0x5B#8, 0x7A#8, 0x48#8, 0x45#8, 0x4C#8, 0x4C#8, 0x4F#8, 0x00#8, 0x00#8, 0xFE#8, 0x47#8] := by decide

/-! ### Steps -/

/-- L2-W7: the acceptance of the sentinel right after reset. -/
theorem test_accept_sentinel :
    let t := after (start [offering .encRiSentinel])
    t.phase = .emit ∧ t.kind = .ri ∧ t.pw = 0xFFFFFFFF#32 ∧ t.idx = 0#4 ∧ t.acc = 0#8 ∧ outData t = some 0xFC#8 := by decide

/-- ENC_RI writes PW and leaves MB (R130). -/
theorem test_accept_enc_ri :
    let t := after { start [offering (.encRi 3 5 42 99 1 9)] with mb := ⟨1, 2, 3, 4, 5, 6, 7, 8⟩ }
    t.pw = 0x013C752B#32 ∧ t.mb = ⟨1, 2, 3, 4, 5, 6, 7, 8⟩ ∧ t.sent = [] := by decide

/-- ENC_MSG writes MB and leaves PW (R140, L2-C3). -/
theorem test_accept_enc_msg :
    let t := after { start [offering (.encMsg 5 9 go)] with pw := 0x12345678#32 }
    mbBytes t.mb = [0x4D#8, 0x47#8, 0x4F#8, 0, 0, 0, 0, 0] ∧ t.pw = 0x12345678#32 ∧ t.kind = .msg := by decide

/-- ENC_MSG_BCAST ignores A1 (L2-C9). -/
theorem test_accept_enc_msg_bcast :
    let t := after (start [{ offering (.encMsgBcast 2 hello) with cmd := { encode (.encMsgBcast 2 hello) with a1 := 4 } }])
    mbBytes t.mb = [0x7A#8, 0x48#8, 0x45#8, 0x4C#8, 0x4C#8, 0x4F#8, 0, 0] := by decide

/-- L2-W1: OUT_READY is ignored while IDLE. -/
theorem test_idle_ignores_ready : (after (start [ready])).SameBlock State.reset ∧ (after (start [ready])).sent = [] := by
  decide

/-- L2-W2: a command offered in EMIT is not accepted. -/
theorem test_busy_offer_ignored :
    (after (emitting .ri 3#4 0x59#8 [offering .encRiSentinel])).SameBlock (emitting .ri 3#4 0x59#8 []) := by decide

/-- L2-W3, L2-W4: reset wins over a transfer and over an acceptance. -/
theorem test_reset_wins :
    after (emitting .msg 3#4 0x11#8 [resetting]) = State.reset ∧ after (start [resetting]) = State.reset := by decide

/-- L2-W5: the checksum's transfer ends the frame, and ACC stays. -/
theorem test_checksum_transfer :
    let t := after (emitting .ri 7#4 0x54#8 [ready])
    t.sent = [0x54#8] ∧ t.phase = .idle ∧ t.idx = 0#4 ∧ t.acc = 0x54#8 := by decide

/-- L2-W6: offset 9 of a message frame is MB[7], and it is added. -/
theorem test_message_offset_nine :
    let t := after (emitting .msg 9#4 0x49#8 [ready])
    t.sent = [0x00#8] ∧ t.idx = 10#4 ∧ t.acc = 0x49#8 ∧ t.phase = .emit := by decide

/-- L2-K1: the seed at offset 1 replaces ACC; L2-K1's offset 2 adds with a dropped carry. -/
theorem test_accumulator :
    (after (emitting .ri 1#4 0x33#8 [ready])).acc = 0x5A#8 ∧ (after (emitting .ri 2#4 0x5A#8 [ready])).acc = 0x59#8
      ∧ (after (emitting .ri 0#4 0x33#8 [ready])).acc = 0x33#8 := by decide

/-! ### The assembler (30_encoding.md R73, R74) -/

/-- A race-info line, with a hexadecimal literal. -/
theorem test_assemble_enc_ri :
    (assembleLine "ENC_RI 3, 5, 0x2A, 99, 1, 9".toList).toOption = some (encode (.encRi 3 5 42 99 1 9)) := by decide

/-- L2-C6: a text with an escape; L2-T6: a text of eight bytes. -/
theorem test_assemble_text :
    (assembleLine "ENC_MSG \"HI\\0XYZ\", 1, 3".toList).toOption
        = some (encode (.encMsg 1 3 ⟨0x48#8, 0x49#8, 0x00#8, 0x58#8, 0x59#8, 0x5A#8⟩))
      ∧ (assembleLine "ENC_MSG_BCAST \"ABCDE\\x46GH\", 3".toList).toOption
        = some (encode (.encMsgBcast 3 ⟨0x41#8, 0x42#8, 0x43#8, 0x44#8, 0x45#8, 0x46#8⟩)) := by decide

/-- What the assembler refuses: a literal past 2^32-1, a missing operand, an open text. -/
theorem test_assemble_refuses :
    (assembleLine "ENC_MSG_BCAST \"A\", 4294967296".toList).toOption = none
      ∧ (assembleLine "ENC_RI 1, 2, 3, 4, 5".toList).toOption = none
      ∧ (assembleLine "ENC_MSG \"A, 1, 2".toList).toOption = none
      ∧ (assembleLine "ENC_RI_SENTINEL".toList).toOption = some (encode .encRiSentinel) := by decide

/-- `encodeRaceMsg("HELLO", 2)` is L2-C1's command; a short `encodeRaceInfo` is the sentinel. -/
theorem test_pseudo_instructions :
    (assembleCall (.encodeRaceMsg [0x48#8, 0x45#8, 0x4C#8, 0x4C#8, 0x4F#8] 2 none)).toOption
        = some (encode (.encMsgBcast 2 hello))
      ∧ (assembleCall (.encodeRaceInfo [1, 2, 3])).toOption = some (encode .encRiSentinel) := by decide

/-! ### Witnesses: for each statement with hypotheses, a state and operands that meet them together -/

/-- CommandMapSelectsEachCommand: ports for each of its four clauses. -/
theorem witness_command_map :
    (encode (.encRi 1 2 3 4 5 6)).op = 0b00#2 ∧ (encode .encRiSentinel).op = 0b01#2
      ∧ (encode (.encMsg 1 2 go)).op = 0b10#2 ∧ (encode (.encMsgBcast 1 go)).op = 0b11#2 := by decide

/-- OnlyListedPortsMatter: different ports for each CMD_OP, differing where the command does not look. -/
theorem witness_ignored_ports :
    let c : CommandPorts := encode (.encRi 1 2 3 4 5 6)
    let m : CommandPorts := encode (.encMsg 1 2 go)
    let b : CommandPorts := encode (.encMsgBcast 1 go)
    (c ≠ { c with txt := hello } ∧ c.op = 0b00#2 ∧ c.a0 = { c with txt := hello }.a0)
      ∧ (encode .encRiSentinel ≠ { encode .encRiSentinel with a0 := 7 })
      ∧ (m ≠ { m with a5 := 7 } ∧ m.op = 0b10#2 ∧ m.txt = { m with a5 := 7 }.txt)
      ∧ (b ≠ { b with a1 := 7 } ∧ b.op = 0b11#2 ∧ b.a0 = { b with a1 := 7 }.a0) := by decide

/-- OnlyLowBitsOfOperandsMatter: operands one past their range, and 0. -/
theorem witness_low_bits :
    (8#32).toNat % 2 ^ 3 = (0#32).toNat % 2 ^ 3 ∧ (16#32).toNat % 2 ^ 4 = (0#32).toNat % 2 ^ 4
      ∧ (64#32).toNat % 2 ^ 6 = (0#32).toNat % 2 ^ 6 ∧ (128#32).toNat % 2 ^ 7 = (0#32).toNat % 2 ^ 7
      ∧ (2#32).toNat % 2 ^ 1 = (0#32).toNat % 2 ^ 1 := by decide

/-- PackRIIsBijectionAwayFromSentinel: the largest word with PW[31:25] = 0. -/
theorem witness_structured_word : (0x01FFFFFF#32).extractLsb' 25 7 = 0#7 := by decide

/-- AcceptanceStepStartsFrame, StepRunsDecodedCommand, the four frame statements, ResetAbandonsFrame: an IDLE state in
which each command is offered. -/
theorem witness_offer : ∀ i ∈ [Instr.encRi 1 2 3 4 5 6, .encRiSentinel, .encMsg 1 2 go, .encMsgBcast 1 go],
    (start [offering i]).phase = .idle ∧ (start [offering i]).inputs.rst = false
      ∧ (start [offering i]).inputs.cmdValid = true ∧ decode (start [offering i]).inputs.cmd = i
      ∧ eventOf (start [offering i]) = .accept i := by decide

/-- StepRunsDecodedCommand, second clause. -/
theorem witness_table_word : decodeTableWord 8 0b01 = some .encRiSentinel := by decide

/-- The frame statements and ResetAbandonsFrame, inside: three bytes with a stall between, the whole frame, and a reset
after one byte. -/
theorem witness_transfers :
    (NoReset 4 (after (start [offering .encRiSentinel, ready, quiet, ready, ready]))
        ∧ transfersIn 4 (after (start [offering .encRiSentinel, ready, quiet, ready, ready])) = 3)
      ∧ (NoReset 8 (after (start (offering .encRiSentinel :: List.replicate 8 ready)))
        ∧ transfersIn 8 (after (start (offering .encRiSentinel :: List.replicate 8 ready))) = 8)
      ∧ (NoReset 12 (after (start (offering (.encMsg 1 2 go) :: List.replicate 12 ready)))
        ∧ transfersIn 12 (after (start (offering (.encMsg 1 2 go) :: List.replicate 12 ready))) = 12)
      ∧ (after (after (start [offering .encRiSentinel, ready, resetting]))).inputs.rst = true := by decide

/-- ExplicitChannelFifteenIsBroadcast: a channel past the range that truncates to 15. -/
theorem witness_channel_fifteen : (0x1F#32).toNat % 16 = 15 := by decide

/-- FrameByteSelectsEachOffset: the last offset of each kind, in EMIT. -/
theorem witness_frame_offsets :
    (emitting .ri 7#4 0#8 []).kind = .ri ∧ (emitting .ri 7#4 0#8 []).idx.toNat < 8
      ∧ (emitting .msg 11#4 0#8 []).kind = .msg ∧ (emitting .msg 11#4 0#8 []).idx.toNat < 12
      ∧ (emitting .msg 11#4 0#8 []).phase = .emit := by decide

/-- FirstConditionSelectsEvent: a state for each of its five clauses. -/
theorem witness_events :
    eventOf (start [resetting]) = .reset ∧ eventOf (start [offering .encRiSentinel]) = .accept .encRiSentinel
      ∧ eventOf (emitting .ri 0#4 0#8 [ready]) = .transfer ∧ eventOf (start [quiet]) = .idle
      ∧ eventOf (emitting .ri 0#4 0#8 [quiet]) = .idle := by decide

/-- TransferStepEffect, ChecksumTransferEndsFrame: a transfer in EMIT inside a frame and at its last byte, and quiet
steps after it. -/
theorem witness_transfer :
    (∀ i ∈ [0#4, 1#4, 2#4, 6#4, 7#4], (emitting .ri i 0#8 [ready]).phase = .emit
        ∧ (emitting .ri i 0#8 [ready]).inputs.rst = false ∧ (emitting .ri i 0#8 [ready]).inputs.outReady = true)
      ∧ (emitting .ri 7#4 0#8 [ready]).idx.toNat = frameLength .ri - 1
      ∧ ∀ e ∈ eventsIn 2 (after (emitting .ri 7#4 0#8 [ready, quiet, ready])), e = .idle := by decide

/-- IdleStepsWriteNothing: no command while IDLE, and a sink stall with a command offered. -/
theorem witness_idle_steps :
    (∀ inp ∈ inputsIn 2 (start [quiet, ready]), inp.rst = false ∧ inp.cmdValid = false)
      ∧ ∀ inp ∈ inputsIn 2 (emitting .ri 3#4 0#8 [quiet, offering .encRiSentinel]), inp.rst = false ∧ inp.outReady = false := by
  decide

/-- OfferWhileBusyIsNotAccepted: a command offered in EMIT, with the sink stalled and with it ready. -/
theorem witness_busy_offer :
    (emitting .ri 3#4 0#8 [offering .encRiSentinel]).inputs.cmdValid = true
      ∧ (emitting .ri 3#4 0#8 [offering .encRiSentinel]).inputs.rst = false
      ∧ (emitting .ri 3#4 0#8 [{ offering .encRiSentinel with outReady := true }]).inputs.outReady = true := by decide

/-- OperandsAreSampledAtAcceptanceOnly: two schedules that differ in the command ports only. -/
theorem witness_same_handshake :
    let s := emitting .ri 3#4 0#8 [ready, quiet]
    let s' := emitting .ri 3#4 0#8 [{ offering (.encMsg 1 2 go) with outReady := true }, offering .encRiSentinel]
    s.SameBlock s' ∧ s.sent = s'.sent ∧ s.phase = .emit
      ∧ (inputsIn 2 s).map (fun inp => (inp.rst, inp.outReady)) = (inputsIn 2 s').map (fun inp => (inp.rst, inp.outReady))
      ∧ acceptedIn 2 s = [] ∧ acceptedIn 2 s' = [] := by decide

/-- OutputIsStableUntilTransferred: two stalls, then the transfer. -/
theorem witness_stall :
    outValid (emitting .ri 3#4 0#8 [quiet, quiet, ready]) = true ∧ NoReset 2 (emitting .ri 3#4 0#8 [quiet, quiet, ready])
      ∧ transfersIn 2 (emitting .ri 3#4 0#8 [quiet, quiet, ready]) = 0
      ∧ eventOf (after (after (emitting .ri 3#4 0#8 [quiet, quiet, ready]))) = .transfer := by decide

/-- WritesHappenOnlyInTheirEvents: each premise is met, by an acceptance of each kind, a last transfer, a seed. -/
theorem witness_writes :
    (after (start [offering (.encMsg 1 2 go)])).kind ≠ .ri ∧ (after (start [offering (.encMsg 1 2 go)])).phase = .emit
      ∧ (after (start [offering (.encMsg 1 2 go)])).mb ≠ State.reset.mb
      ∧ (after (start [offering (.encRi 1 2 3 4 5 6)])).pw ≠ State.reset.pw
      ∧ (after (emitting .ri 7#4 0#8 [ready])).phase = .idle ∧ (after (emitting .ri 1#4 0#8 [ready])).acc ≠ 0#8
      ∧ (after (emitting .ri 1#4 0#8 [ready])).sent ≠ [] := by decide

/-- ResetStepSetsEveryElement, BlockAcceptsRightAfterReset: two reset steps in EMIT, and an offer right after one. -/
theorem witness_reset_steps :
    (∀ inp ∈ inputsIn 2 (emitting .msg 4#4 0#8 [resetting, resetting]), inp.rst = true)
      ∧ (emitting .msg 4#4 0#8 [resetting, offering .encRiSentinel]).inputs.rst = true
      ∧ (after (emitting .msg 4#4 0#8 [resetting, offering .encRiSentinel])).inputs.rst = false
      ∧ (after (emitting .msg 4#4 0#8 [resetting, offering .encRiSentinel])).inputs.cmdValid = true := by decide

/-- StepKeepsSound, StepKeepsAccumulatorSum, StepRefinesFrameQueue: a state in the middle of a frame that keeps both
invariants (L2-K1 at offset 3), and the reset state. -/
theorem witness_sound : (emitting .ri 3#4 0x59#8 [ready]).Sound := by decide
theorem witness_summed : (emitting .ri 3#4 0x59#8 [ready]).Summed := by decide
theorem witness_same_block : (start [ready]).SameBlock State.reset := by decide

/-- ChecksumByteIsClosedForm: the sentinel frame (L2-K1) and an empty message (L2-C5) at their checksums. -/
theorem witness_checksum_ri : (emitting .ri 7#4 0x54#8 []).phase = .emit ∧ (emitting .ri 7#4 0x54#8 []).Summed
    ∧ (emitting .ri 7#4 0x54#8 []).idx.toNat = frameLength .ri - 1 := by decide
theorem witness_checksum_msg : (emitting .msg 11#4 0x59#8 []).phase = .emit ∧ (emitting .msg 11#4 0x59#8 []).Summed
    ∧ (emitting .msg 11#4 0x59#8 []).idx.toNat = frameLength .msg - 1 := by decide

/-- OutputIsConcatenationOfFrames, FrameTakesAtLeastLengthPlusOneSteps first clause: a whole frame from IDLE. -/
theorem witness_frame_run :
    (start (offering .encRiSentinel :: List.replicate 8 ready)).phase = .idle
      ∧ NoReset 9 (start (offering .encRiSentinel :: List.replicate 8 ready))
      ∧ acceptedIn 9 (start (offering .encRiSentinel :: List.replicate 8 ready)) = [.encRiSentinel]
      ∧ transfersIn 9 (start (offering .encRiSentinel :: List.replicate 8 ready)) = 8 := by decide

/-- FrameEndsAfterExactlyItsLength: fresh states with no transfer, and with all eight. -/
theorem witness_fresh :
    (emitting .ri 0#4 0#8 [quiet]).Fresh ∧ NoReset 1 (emitting .ri 0#4 0#8 [quiet])
      ∧ acceptedIn 1 (emitting .ri 0#4 0#8 [quiet]) = []
      ∧ NoReset 8 (emitting .ri 0#4 0#8 (List.replicate 8 ready))
      ∧ acceptedIn 8 (emitting .ri 0#4 0#8 (List.replicate 8 ready)) = []
      ∧ transfersIn 8 (emitting .ri 0#4 0#8 (List.replicate 8 ready)) = 8 := by decide

/-- ReadySinkGetsWholeFrame: eight ready steps, with a stall among them. -/
theorem witness_ready_sink :
    let s := start (offering .encRiSentinel :: quiet :: List.replicate 8 ready)
    eventOf s = .accept .encRiSentinel ∧ (∀ inp ∈ inputsIn 9 (after s), inp.rst = false)
      ∧ frameLength .ri ≤ (inputsIn 9 (after s)).countP (·.outReady) := by decide

/-- FrameTakesAtLeastLengthPlusOneSteps, second clause, and TwoOffersInARowIssueOneCommand: every step offers and is
ready. -/
theorem witness_always_offered :
    let busy : Inputs := { offering .encRiSentinel with outReady := true }
    eventOf (start (List.replicate 9 busy)) = .accept .encRiSentinel
      ∧ (∀ inp ∈ inputsIn 9 (start (List.replicate 9 busy)), inp.rst = false ∧ inp.cmdValid = true ∧ inp.outReady = true)
      ∧ (start (List.replicate 9 busy)).phase = .idle := by decide

/-- PayloadOfIdleStateIsUnobservable, OutputPortsFollowState: two IDLE states with different registers. -/
theorem witness_idle_pair :
    let s := start [offering .encRiSentinel, ready]
    let s' : State := { s with kind := .msg, pw := 0#32, acc := 0x47#8, idx := 5#4 }
    s ≠ s' ∧ s.phase = .idle ∧ s'.phase = .idle ∧ s.SameEnvironment s' := by decide

/-- ResetAbandonsFrame, after its reset: three steps without an acceptance, the second a reset. -/
theorem witness_later_reset :
    let v := after (after (after (start [offering .encRiSentinel, ready, resetting, quiet, resetting, ready])))
    v.SameBlock State.reset ∧ eventsIn 3 v = [.idle, .reset, .idle] ∧ acceptedIn 3 v = [] := by decide

/-- AssemblerChecksLiteralsAndCutsText, PseudoInstructionsExpand: literals on both sides of the bound, and too few
values. -/
theorem witness_literals : 4294967295 < 2 ^ 32 ∧ 2 ^ 32 ≤ 4294967296 ∧ [1, 2, 3, 4, 5].length < 6 := by decide

end Sys2Proof.Tests
end

/-! The obligations of 10_state.md: what the output ports read, what each event writes, the invariants of R36, and the
two noninterference statements (R37; R38 with R35). -/

namespace Sys2Proof.Machine

/-! ### Facts of the block's state that several obligations use -/

/-- FrameByte reads the block alone (42_frame_wrapper.md R110). -/
theorem frameByte_congr_of_sameBlock {s t : State} (h : s.SameBlock t) : frameByte s = frameByte t := by
  obtain ⟨-, hk, hi, hw, hm, ha⟩ := h
  simp only [frameByte, frameByteAt, hk, hi, hw, hm, ha]

/-- The byte at offset L-1 is ACC (42_frame_wrapper.md R110). -/
theorem frameByteAt_last (s : State) : frameByteAt s (frameLength s.kind - 1) = s.acc := by
  cases hk : s.kind <;> simp [frameByteAt, hk]

/-- Using up a step's inputs leaves the block as it is. -/
theorem State.consume_sameBlock (s : State) : s.consume.SameBlock s := by
  simp [State.SameBlock]

/-- A property that every step keeps holds after a run. -/
theorem runFor_keeps {P : State → Prop} (hstep : ∀ s t, P s → step s = .next t → P t) (k : Nat) {s t : State}
    (hs : P s) (h : runFor k s = .next t) : P t := by
  induction k generalizing s with
  | zero => cases h; exact hs
  | succ k ih =>
    obtain ⟨u, hu⟩ := step_next s
    rw [runFor_succ hu] at h
    exact ih (hstep s u hs hu) h

/-- A relation of two states that a step of both keeps holds after runs of the same length. -/
theorem runFor_keeps_rel {R : State → State → Prop}
    (hstep : ∀ s s', R s s' → ∃ t t', step s = .next t ∧ step s' = .next t' ∧ R t t') (k : Nat) {s s' : State}
    (h : R s s') : ∃ t t', runFor k s = .next t ∧ runFor k s' = .next t' ∧ R t t' := by
  induction k generalizing s s' with
  | zero => exact ⟨s, s', rfl, rfl, h⟩
  | succ k ih =>
    obtain ⟨t, t', ht, ht', hR⟩ := hstep s s' h
    rw [runFor_succ ht, runFor_succ ht']
    exact ih hR

/-! ### The invariants of 10_state.md R36 -/

/-- What R36 says of PW: its top seven bits are 0, or it is the sentinel. -/
def PwSound (w : Word) : Prop := w.extractLsb' 25 7 = 0#7 ∨ w = 0xFFFFFFFF#32

/-- What R36 says of MB: the flags byte's bit 7 and MB[7] are 0, and zeros follow the first zero of the text. -/
def MbSound (m : MsgPayload) : Prop :=
  m.b0.getLsbD 7 = false ∧ m.b7 = 0x00#8
    ∧ ∀ k < 7, 1 ≤ k → mbByte? m k = some 0x00#8 → ∀ j < 8, k ≤ j → mbByte? m j = some 0x00#8

/-- R36 is a part on the sequencer and a part on each payload register. -/
theorem State.sound_iff {s : State} : s.Sound ↔ (s.phase = .idle → s.idx = 0#4)
    ∧ (s.phase = .emit → s.idx.toNat < frameLength s.kind) ∧ PwSound s.pw ∧ MbSound s.mb :=
  Iff.rfl

/-- R36 speaks of the block alone. -/
theorem State.Sound.congr {s t : State} (h : t.SameBlock s) (hs : s.Sound) : t.Sound := by
  obtain ⟨hp, hk, hi, hw, hm, -⟩ := h
  rw [State.sound_iff] at hs ⊢
  rwa [hp, hk, hi, hw, hm]

/-- The six fields of a packed race-info word end below bit 25 (40_bitfield_packer.md R81). -/
theorem packRI_top_zero (a0 a1 a2 a3 a4 a5 : Operand) : (packRI a0 a1 a2 a3 a4 a5).extractLsb' 25 7 = 0#7 := by
  ext i hi
  simp [packRI, field]
  -- each field's own bound on its bit index contradicts an index of 25 or more
  omega

/-- The two fields of the flags byte end below bit 7 (40_bitfield_packer.md R86). -/
theorem packFlags_bit_seven (s c : Operand) : (packFlags s c).getLsbD 7 = false := by
  simp [packFlags, field]

/-- After a zero byte of the packed message field comes a zero byte: a lane that CopyText passes on has only nonzero
lanes before it (40_bitfield_packer.md R87), and MB[7] is 0 (R88). -/
theorem mbByte_packMB_succ (s c : Operand) (x : Text) {k : Nat} (hk : 1 ≤ k) (hk' : k < 7)
    (h : mbByte? (packMB s c x) k = some 0x00#8) : mbByte? (packMB s c x) (k + 1) = some 0x00#8 := by
  interval_cases k <;> simp [mbByte?, mbBytes, packMB, copyText] at h ⊢ <;> tauto

theorem packMB_sound (s c : Operand) (x : Text) : MbSound (packMB s c x) := by
  refine ⟨packFlags_bit_seven s c, rfl, fun k _ hk hzero j hj hkj => ?_⟩
  induction j, hkj using Nat.le_induction with
  | base => exact hzero
  | succ j hkj ih => exact mbByte_packMB_succ s c x (by omega) (by omega) (ih (by omega))

/-- An acceptance leaves a payload register, or writes a value of R36 into it. -/
theorem exec_payload {i : Instr} {s t : State} (h : exec i s = .next t) :
    (t.pw = s.pw ∨ PwSound t.pw) ∧ (t.mb = s.mb ∨ MbSound t.mb) := by
  cases i with
  | encRi pos lap secs hunds started chn =>
    cases h; exact ⟨.inr (.inl (packRI_top_zero pos lap secs hunds started chn)), .inl rfl⟩
  | encRiSentinel => cases h; exact ⟨.inr (.inr rfl), .inl rfl⟩
  | encMsg seq chn txt => cases h; exact ⟨.inl rfl, .inr (packMB_sound seq chn txt)⟩
  | encMsgBcast seq txt => cases h; exact ⟨.inl rfl, .inr (packMB_sound seq bcastChn txt)⟩

theorem frameLength_pos (k : Kind) : 0 < frameLength k := by cases k <;> decide

/-- Frames are short enough for IDX: one more than an offset below L fits four bits (10_state.md R24). -/
theorem frameLength_lt (k : Kind) : frameLength k < 16 := by cases k <;> decide

/-- A transfer inside a frame leaves IDX inside it, or ends the frame with IDX = 0 (42_frame_wrapper.md R116, R117). -/
theorem transfer_keeps_offset {s : State} (hp : s.phase = .emit) (hi : s.idx.toNat < frameLength s.kind) :
    ((transfer s).phase = .idle ∧ (transfer s).idx = 0#4)
      ∨ ((transfer s).phase = .emit ∧ (transfer s).idx.toNat < frameLength s.kind) := by
  obtain ⟨-, -, -, -, -, -, -, hidx, hphase⟩ := transfer_spec s
  rw [hidx, hphase]
  have hL := frameLength_lt s.kind
  by_cases hlast : s.idx.toNat = frameLength s.kind - 1
  · simp [hlast]
  · simp only [if_neg hlast]
    exact .inr ⟨hp, by rw [BitVec.toNat_add]; simp; omega⟩

theorem exec_keeps_sound {i : Instr} {s t : State} (hs : s.Sound) (h : exec i s = .next t) : t.Sound := by
  obtain ⟨-, -, hpw, hmb⟩ := State.sound_iff.1 hs
  obtain ⟨hw, hm⟩ := exec_payload h
  obtain ⟨u, hu, hp, -, hi, -⟩ := exec_next i s
  cases hu.symm.trans h
  refine State.sound_iff.2 ⟨fun _ => hi, fun _ => ?_, hw.elim (· ▸ hpw) id, hm.elim (· ▸ hmb) id⟩
  simpa [hi] using frameLength_pos t.kind

theorem transfer_keeps_sound {s : State} (hs : s.Sound) (hp : s.phase = .emit) : (transfer s).Sound := by
  obtain ⟨-, hoff, hpw, hmb⟩ := State.sound_iff.1 hs
  obtain ⟨-, hk, hw, hm, -⟩ := transfer_spec s
  rw [State.sound_iff, hk, hw, hm]
  rcases transfer_keeps_offset hp (hoff hp) with ⟨hp', hi'⟩ | ⟨hp', hi'⟩
  · exact ⟨fun _ => hi', fun h => (nomatch hp'.symm.trans h), hpw, hmb⟩
  · exact ⟨fun h => (nomatch hp'.symm.trans h), fun _ => hi', hpw, hmb⟩

theorem reset_sound : State.reset.Sound := by decide

theorem reset_summed : State.reset.Summed := nofun

theorem resetBlock_sameBlock (s : State) : (resetBlock s).SameBlock State.reset := ⟨rfl, rfl, rfl, rfl, rfl, rfl⟩

theorem step_keeps_sound {s t : State} (hs : s.Sound) (h : step s = .next t) : t.Sound := by
  have hc : s.consume.Sound := hs.congr s.consume_sameBlock
  cases he : eventOf s with
  | reset => cases (step_reset he).symm.trans h; exact reset_sound.congr (resetBlock_sameBlock _)
  | accept i => exact exec_keeps_sound hc ((step_accept he).symm.trans h)
  | transfer =>
    cases (step_transfer he).symm.trans h
    exact transfer_keeps_sound hc (by simpa using (eventOf_eq_transfer.1 he).2.1)
  | idle => cases (step_idle he).symm.trans h; exact hc

/-- Settles O38: each event keeps R36, so a run from the reset values keeps it. -/
theorem stepKeepsSound : Obligations.StepKeepsSound :=
  ⟨fun _ _ => step_keeps_sound,
    fun k _ _ hs h => runFor_keeps (fun _ _ => step_keeps_sound) k (reset_sound.congr hs) h⟩

/-- Settles O37: the reset values meet R36, and no frame is in progress for ACC to sum. -/
theorem resetStateIsSound : Obligations.ResetStateIsSound := ⟨reset_sound, reset_summed⟩

/-- Settles O33: the values of R38, read off the definition of the reset state. -/
theorem resetStateValues : Obligations.ResetStateValues := by
  unfold Obligations.ResetStateValues
  decide

/-! ### The output ports (10_state.md R31) -/

theorem cmdReady_iff {s : State} : cmdReady s = true ↔ s.phase = .idle := by simp [cmdReady]

theorem outValid_iff {s : State} : outValid s = true ↔ s.phase = .emit := by simp [outValid]

theorem outData_of_valid {s : State} (h : outValid s = true) : outData s = some (frameByte s) := if_pos h

theorem outData_of_not_valid {s : State} (h : outValid s = false) : outData s = none := by simp [outData, h]

/-- What the ports show is fixed by PHASE, and by FrameByte while a frame goes out. -/
theorem ports_congr {s t : State} (hp : s.phase = t.phase) (hb : s.phase = .emit → frameByte s = frameByte t) :
    cmdReady s = cmdReady t ∧ outValid s = outValid t ∧ outData s = outData t := by
  have hv : outValid s = outValid t := by rw [outValid, outValid, hp]
  refine ⟨by rw [cmdReady, cmdReady, hp], hv, ?_⟩
  cases h : outValid s with
  | true => rw [outData_of_valid h, outData_of_valid (hv ▸ h), hb (outValid_iff.1 h)]
  | false => rw [outData_of_not_valid h, outData_of_not_valid (hv ▸ h)]

/-- Settles O23: each port is a function of PHASE or of FrameByte, which read the block alone. -/
theorem outputPortsFollowState : Obligations.OutputPortsFollowState := fun _ _ =>
  ⟨cmdReady_iff, outValid_iff, outData_of_valid, outData_of_not_valid,
    fun h => ports_congr h.1 fun _ => frameByte_congr_of_sameBlock h⟩

/-! ### What each event writes (10_state.md R39) -/

/-- A transfer ends the frame at offset L-1 only (42_frame_wrapper.md R117). -/
theorem transfer_phase_eq_idle {s : State} (hp : s.phase = .emit) :
    (transfer s).phase = .idle ↔ s.idx.toNat = frameLength s.kind - 1 := by
  obtain ⟨-, -, -, -, -, -, -, -, hphase⟩ := transfer_spec s
  simp [hphase, hp]

/-- Past the preamble and before the checksum are the only offsets whose transfer writes ACC (R102, R103). -/
theorem offset_of_transfer_acc_ne {s : State} (h : (transfer s).acc ≠ s.acc) :
    1 ≤ s.idx.toNat ∧ s.idx.toNat ≤ frameLength s.kind - 2 := by
  obtain ⟨-, -, -, -, -, -, hacc, -⟩ := transfer_spec s
  rw [hacc] at h
  split_ifs at h with hseed hadd
  · exact ⟨hseed.ge, by rw [hseed]; cases s.kind <;> decide⟩
  · exact ⟨by omega, hadd.2⟩
  · exact absurd rfl h

/-- Settles O31: event by event, from what the reset, the acceptance, the transfer and the idle step write. -/
theorem writesHappenOnlyInTheirEvents : Obligations.WritesHappenOnlyInTheirEvents := by
  intro s
  cases he : eventOf s with
  | reset => exact ⟨_, step_reset he, by simp⟩
  | accept i =>
    have hidle := (eventOf_eq_accept.1 he).2.1
    obtain ⟨t, ht, -, -, -, -, -, -, hsent, hmb, hpw, -⟩ := exec_next i s.consume
    refine ⟨t, (step_accept he).trans ht, ?_⟩
    cases hk : commandKind i with
    | ri => simp [hidle, hk, hmb hk, hsent]
    | msg => simp [hidle, hk, hpw hk, hsent]
  | transfer =>
    have hemit := (eventOf_eq_transfer.1 he).2.1
    obtain ⟨-, hk, hw, hm, -⟩ := transfer_spec s.consume
    have hlast := transfer_phase_eq_idle (s := s.consume) (by simpa using hemit)
    have hacc := offset_of_transfer_acc_ne (s := s.consume)
    refine ⟨_, step_transfer he, ?_⟩
    simpa [hemit, hk, hw, hm] using And.intro hlast.1 hacc
  | idle =>
    refine ⟨_, step_idle he, ?_⟩
    cases hp : s.phase <;> simp [hp, State.SameBlock]

/-! ### While a frame goes out, only RST and OUT_READY matter (10_state.md R37) -/

/-- Without an acceptance, PHASE, RST and OUT_READY alone select the event (42_frame_wrapper.md R112). -/
theorem eventOf_of_no_accept {s : State} (h : ∀ i, eventOf s ≠ .accept i) :
    eventOf s = if s.inputs.rst then .reset
      else if s.phase = .emit ∧ s.inputs.outReady = true then .transfer else .idle := by
  unfold eventOf selectEvent at h ⊢
  by_cases ha : s.phase = .idle ∧ s.inputs.cmdValid = true
  · by_cases hr : s.inputs.rst = true
    · simp only [if_pos hr]
    · simp [hr, ha] at h
  · simp only [if_neg ha]

theorem acceptedIn_succ_eq_nil {k : Nat} {s t : State} (h : step s = .next t) :
    acceptedIn (k + 1) s = [] ↔ (∀ i, eventOf s ≠ .accept i) ∧ acceptedIn k t = [] := by
  rw [acceptedIn, eventsIn_succ h]
  cases eventOf s <;> simp [acceptedIn, Event.command?]

theorem State.SameBlock.consume {s t : State} (h : s.SameBlock t) : s.consume.SameBlock t.consume := by
  simpa [State.SameBlock] using h

/-- A transfer's writes depend on PHASE, KIND, IDX, ACC and the byte sent, and on nothing else. -/
theorem transfer_congr {s t : State} (hp : s.phase = t.phase) (hk : s.kind = t.kind) (hi : s.idx = t.idx)
    (ha : s.acc = t.acc) (hb : frameByte s = frameByte t) :
    (transfer s).phase = (transfer t).phase ∧ (transfer s).kind = (transfer t).kind
      ∧ (transfer s).idx = (transfer t).idx ∧ (transfer s).acc = (transfer t).acc := by
  obtain ⟨-, hk₁, -, -, -, -, ha₁, hi₁, hp₁⟩ := transfer_spec s
  obtain ⟨-, hk₂, -, -, -, -, ha₂, hi₂, hp₂⟩ := transfer_spec t
  rw [hp₁, hk₁, hi₁, ha₁, hp₂, hk₂, hi₂, ha₂, hp, hk, hi, ha, hb]
  exact ⟨rfl, rfl, rfl, rfl⟩

theorem transfer_sameBlock {s t : State} (h : s.SameBlock t) : (transfer s).SameBlock (transfer t) := by
  have hb := frameByte_congr_of_sameBlock h
  obtain ⟨hp, hk, hi, hw, hm, ha⟩ := h
  obtain ⟨hp', hk', hi', ha'⟩ := transfer_congr hp hk hi ha hb
  obtain ⟨-, -, hw₁, hm₁, -⟩ := transfer_spec s
  obtain ⟨-, -, hw₂, hm₂, -⟩ := transfer_spec t
  exact ⟨hp', hk', hi', by rw [hw₁, hw₂, hw], by rw [hm₁, hm₂, hm], ha'⟩

/-- Steps of the same event that accept nothing do the same to the block and send the same. -/
theorem step_sameBlock {s s' t t' : State} (hblock : s.SameBlock s') (hsent : s.sent = s'.sent)
    (hev : eventOf s = eventOf s') (hna : ∀ i, eventOf s ≠ .accept i) (ht : step s = .next t)
    (ht' : step s' = .next t') : t.SameBlock t' ∧ t.sent = t'.sent := by
  have hc := hblock.consume
  cases he : eventOf s with
  | reset =>
    cases (step_reset he).symm.trans ht
    cases (step_reset (hev ▸ he)).symm.trans ht'
    exact ⟨⟨rfl, rfl, rfl, rfl, rfl, rfl⟩, by simpa using hsent⟩
  | accept i => exact absurd he (hna i)
  | transfer =>
    cases (step_transfer he).symm.trans ht
    cases (step_transfer (hev ▸ he)).symm.trans ht'
    refine ⟨transfer_sameBlock hc, ?_⟩
    rw [(transfer_spec _).1, (transfer_spec _).1, frameByte_congr_of_sameBlock hc]
    simp [hsent]
  | idle =>
    cases (step_idle he).symm.trans ht
    cases (step_idle (hev ▸ he)).symm.trans ht'
    exact ⟨hc, by simpa using hsent⟩

/-- R37 from any two states with the same block: a run that accepts nothing reads RST and OUT_READY only. -/
theorem runFor_sameBlock (k : Nat) {s s' : State} (hblock : s.SameBlock s') (hsent : s.sent = s'.sent)
    (hin : (inputsIn k s).map (fun inp => (inp.rst, inp.outReady))
      = (inputsIn k s').map (fun inp => (inp.rst, inp.outReady)))
    (hna : acceptedIn k s = []) (hna' : acceptedIn k s' = []) :
    ∃ t t', runFor k s = .next t ∧ runFor k s' = .next t' ∧ t.SameBlock t' ∧ t.sent = t'.sent := by
  induction k generalizing s s' with
  | zero => exact ⟨s, s', rfl, rfl, hblock, hsent⟩
  | succ k ih =>
    obtain ⟨u, hu⟩ := step_next s
    obtain ⟨u', hu'⟩ := step_next s'
    obtain ⟨hno, hna⟩ := (acceptedIn_succ_eq_nil hu).1 hna
    obtain ⟨hno', hna'⟩ := (acceptedIn_succ_eq_nil hu').1 hna'
    rw [inputsIn_succ hu, inputsIn_succ hu', List.map_cons, List.map_cons, List.cons.injEq, Prod.mk.injEq] at hin
    obtain ⟨⟨hrst, hready⟩, hin⟩ := hin
    have hev : eventOf s = eventOf s' := by
      rw [eventOf_of_no_accept hno, eventOf_of_no_accept hno', hrst, hready, hblock.1]
    obtain ⟨hblock, hsent⟩ := step_sameBlock hblock hsent hev hno hu hu'
    rw [runFor_succ hu, runFor_succ hu']
    exact ih hblock hsent hin hna hna'

/-- Settles O29: the run lemma, which needs no premise on PHASE. -/
theorem operandsAreSampledAtAcceptanceOnly : Obligations.OperandsAreSampledAtAcceptanceOnly :=
  fun k _ _ hblock hsent _ hin hna hna' => runFor_sameBlock k hblock hsent hin hna hna'

/-! ### What the registers hold in IDLE cannot be observed (10_state.md R38, R35) -/

/-- What two states share that host and sink cannot tell apart: the environment, PHASE, and while a frame goes out the
frame, the place in it, and ACC. -/
def State.Alike (s t : State) : Prop :=
  s.SameEnvironment t ∧ s.phase = t.phase
    ∧ (s.phase = .emit → s.kind = t.kind ∧ s.idx = t.idx ∧ s.acc = t.acc ∧ s.idx.toNat < frameLength s.kind
      ∧ frameBytes s.kind s.pw s.mb = frameBytes t.kind t.pw t.mb)

/-- Inside a frame FrameByte reads the payload through the frame's bytes only: before offset L-1 it is such a byte, and
there it is ACC. -/
theorem frameByte_congr_of_frame {s t : State} (hk : s.kind = t.kind) (hi : s.idx = t.idx) (ha : s.acc = t.acc)
    (hlt : s.idx.toNat < frameLength s.kind) (hf : frameBytes s.kind s.pw s.mb = frameBytes t.kind t.pw t.mb) :
    frameByte s = frameByte t := by
  rw [frameByte, frameByte, ← hi]
  by_cases hlast : s.idx.toNat = frameLength s.kind - 1
  · rw [hlast, frameByteAt_last, hk, frameByteAt_last, ha]
  · apply Option.some_injective
    rw [← frameByteAt_eq_frameBytes s _ (by omega), hf, frameByteAt_eq_frameBytes t _ (by rw [← hk]; omega)]

theorem State.Alike.frameByte_eq {s t : State} (h : s.Alike t) (hp : s.phase = .emit) : frameByte s = frameByte t := by
  obtain ⟨hk, hi, ha, hlt, hf⟩ := h.2.2 hp
  exact frameByte_congr_of_frame hk hi ha hlt hf

theorem State.SameEnvironment.consume {s t : State} (h : s.SameEnvironment t) :
    s.consume.SameEnvironment t.consume := by
  obtain ⟨hs, ht, hsent⟩ := h
  obtain ⟨hs', ht'⟩ := consume_environment_congr hs ht
  exact ⟨hs', ht', by simpa using hsent⟩

theorem State.Alike.consume {s t : State} (h : s.Alike t) : s.consume.Alike t.consume := by
  obtain ⟨henv, hp, hemit⟩ := h
  exact ⟨henv.consume, by simpa using hp, by simpa using hemit⟩

/-- Two states with the same inputs in the same phase take the same event. -/
theorem State.Alike.eventOf_eq {s t : State} (h : s.Alike t) : eventOf s = eventOf t := by
  obtain ⟨⟨hs, ht, -⟩, hp, -⟩ := h
  rw [eventOf, eventOf, inputs_congr hs ht, hp]

/-- Whatever two states hold, a command that both accept makes them alike: its frame is its operands' alone. -/
theorem exec_alike (i : Instr) {s t : State} (h : s.SameEnvironment t) :
    ∃ u v, exec i s = .next u ∧ exec i t = .next v ∧ u.Alike v := by
  obtain ⟨u, hu, hp₁, hk₁, hi₁, ha₁, hs₁, ht₁, hsent₁, -, -, hf₁⟩ := exec_next i s
  obtain ⟨v, hv, hp₂, hk₂, hi₂, ha₂, hs₂, ht₂, hsent₂, -, -, hf₂⟩ := exec_next i t
  obtain ⟨hs, ht, hsent⟩ := h
  refine ⟨u, v, hu, hv, ⟨by rw [hs₁, hs₂, hs], by rw [ht₁, ht₂, ht], by rw [hsent₁, hsent₂, hsent]⟩,
    hp₁.trans hp₂.symm, fun _ => ⟨hk₁.trans hk₂.symm, hi₁.trans hi₂.symm, ha₁.trans ha₂.symm, ?_, hf₁.trans hf₂.symm⟩⟩
  rw [hi₁]
  exact frameLength_pos u.kind

theorem transfer_alike {s t : State} (h : s.Alike t) (hp : s.phase = .emit) : (transfer s).Alike (transfer t) := by
  have hb := h.frameByte_eq hp
  obtain ⟨⟨hs, ht, hsent⟩, hphase, hemit⟩ := h
  obtain ⟨hk, hi, ha, hlt, hf⟩ := hemit hp
  obtain ⟨hsent₁, hk₁, hw₁, hm₁, hs₁, ht₁, -⟩ := transfer_spec s
  obtain ⟨hsent₂, hk₂, hw₂, hm₂, hs₂, ht₂, -⟩ := transfer_spec t
  obtain ⟨hp', hk', hi', ha'⟩ := transfer_congr hphase hk hi ha hb
  refine ⟨⟨by rw [hs₁, hs₂, hs], by rw [ht₁, ht₂, ht], by rw [hsent₁, hsent₂, hsent, hb]⟩, hp',
    fun hgo => ⟨hk', hi', ha', ?_, by rw [hk₁, hw₁, hm₁, hk₂, hw₂, hm₂, hf]⟩⟩
  rcases transfer_keeps_offset hp hlt with ⟨hend, -⟩ | ⟨-, hlt'⟩
  · exact nomatch hend.symm.trans hgo
  · exact hk₁ ▸ hlt'

theorem step_alike (s s' : State) (h : s.Alike s') :
    ∃ t t', step s = .next t ∧ step s' = .next t' ∧ t.Alike t' := by
  have hc := h.consume
  have hev := h.eventOf_eq
  cases he : eventOf s with
  | reset => exact ⟨_, _, step_reset he, step_reset (hev ▸ he), hc.1, rfl, nofun⟩
  | accept i =>
    rw [step_accept he, step_accept (hev ▸ he)]
    exact exec_alike i hc.1
  | transfer =>
    have hp := (eventOf_eq_transfer.1 he).2.1
    exact ⟨_, _, step_transfer he, step_transfer (hev ▸ he), transfer_alike hc (by simpa using hp)⟩
  | idle => exact ⟨_, _, step_idle he, step_idle (hev ▸ he), hc⟩

/-- Settles O47: two IDLE states with one environment are alike, steps keep them alike, and alike states show the same
ports. -/
theorem payloadOfIdleStateIsUnobservable : Obligations.PayloadOfIdleStateIsUnobservable := by
  intro k s s' hp hp' henv
  have halike : s.Alike s' := ⟨henv, hp.trans hp'.symm, fun h => nomatch hp.symm.trans h⟩
  obtain ⟨t, t', ht, ht', h⟩ := runFor_keeps_rel step_alike k halike
  exact ⟨t, t', ht, ht', h.1.2.2, ports_congr h.2.1 h.frameByte_eq⟩

end Sys2Proof.Machine

/-! The obligations of 30_encoding.md: commands as words and ports (R60 to R62), what every frame keeps to (R71 to R75),
and the assembler (R73, R74). -/

namespace Sys2Proof.Machine

/-! ### Command words and ports (30_encoding.md R60 to R62, log 6) -/

/-- On the ports, encoding and decoding agree (30_encoding.md R61, R62). -/
theorem decode_encode (i : Instr) : decode (encode i) = i := by
  cases i with
  | encRi pos lap secs hunds started chn => exact (Laws.PortRoundTrip.encRi pos lap secs hunds started chn).1
  | encRiSentinel => exact Laws.PortRoundTrip.encRiSentinel.1
  | encMsg seq chn txt => exact (Laws.PortRoundTrip.encMsg seq chn txt).1
  | encMsgBcast seq txt => exact (Laws.PortRoundTrip.encMsgBcast seq txt).1

/-- Each port's slice passes over the ports above it and starts right after those below it. -/
theorem portsOfWord_commandWord (c : CommandPorts) : portsOfWord (commandWord c) = c := by
  -- `-index`: simp's index tells the literal width 242 from the width `v + w` of an append
  simp -index only [portsOfWord, commandWord, BitVec.extractLsb'_append_eq_of_add_le,
    BitVec.extractLsb'_append_eq_of_le, BitVec.extractLsb'_eq_self, Nat.reduceAdd, Nat.reduceLeDiff, Nat.reduceSub]

/-- The slices of the layout are adjacent, the first starts at bit 0, and together they are 242 bits. -/
theorem commandWord_portsOfWord (w : BitVec 242) : commandWord (portsOfWord w) = w := by
  simp -index only [portsOfWord, commandWord, BitVec.extractLsb'_append_extractLsb'_eq_extractLsb', Nat.reduceAdd,
    BitVec.extractLsb'_eq_self]

/-- A number of bits that covers the whole word cuts nothing off it. -/
theorem portsOfTableWord_toNat {nbits : Nat} (h : 242 ≤ nbits) (w : BitVec 242) :
    portsOfTableWord nbits w.toNat = portsOfWord w := by
  have hlt : w.toNat < 2 ^ nbits := w.isLt.trans_le (Nat.pow_le_pow_right (by decide) h)
  rw [portsOfTableWord, Nat.mod_eq_of_lt hlt, BitVec.ofNat_toNat, BitVec.setWidth_eq]

theorem decodeTableWord_commandWord (i : Instr) : decodeTableWord 248 (commandWord (encode i)).toNat = some i := by
  rw [decodeTableWord, portsOfTableWord_toNat (by decide), portsOfWord_commandWord, decode_encode]

/-- Settles O3: a word and its ports determine each other, and the ports of a command decode to it. -/
theorem commandWordRoundTrip : Obligations.CommandWordRoundTrip :=
  ⟨fun i => by rw [portsOfWord_commandWord, decode_encode], commandWord_portsOfWord, decodeTableWord_commandWord⟩

/-- Settles O4: four closed words, evaluated. -/
theorem writtenWordsDecode : Obligations.WrittenWordsDecode := by
  unfold Obligations.WrittenWordsDecode
  decide

/-! ### The command map (30_encoding.md R61, R62) -/

theorem decode_of_op_00 {c : CommandPorts} (h : c.op = 0b00#2) : decode c = .encRi c.a0 c.a1 c.a2 c.a3 c.a4 c.a5 :=
  Laws.PortRoundTrip.decode_of_bits false false (by rw [h]; decide) (by rw [h]; decide)

theorem decode_of_op_01 {c : CommandPorts} (h : c.op = 0b01#2) : decode c = .encRiSentinel :=
  Laws.PortRoundTrip.decode_of_bits false true (by rw [h]; decide) (by rw [h]; decide)

theorem decode_of_op_10 {c : CommandPorts} (h : c.op = 0b10#2) : decode c = .encMsg c.a0 c.a1 c.txt :=
  Laws.PortRoundTrip.decode_of_bits true false (by rw [h]; decide) (by rw [h]; decide)

theorem decode_of_op_11 {c : CommandPorts} (h : c.op = 0b11#2) : decode c = .encMsgBcast c.a0 c.txt :=
  Laws.PortRoundTrip.decode_of_bits true true (by rw [h]; decide) (by rw [h]; decide)

/-- The command map has a row for every value of CMD_OP. -/
theorem op_cases (op : BitVec 2) : op = 0b00#2 ∨ op = 0b01#2 ∨ op = 0b10#2 ∨ op = 0b11#2 := by
  revert op
  decide

theorem exec_encRi (pos lap secs hunds started chn : Operand) (s : State) :
    exec (.encRi pos lap secs hunds started chn) s
      = .next (beginFrame .ri (s.setPw (packRI pos lap secs hunds started chn))) := rfl

theorem exec_encRiSentinel (s : State) : exec .encRiSentinel s = .next (beginFrame .ri (s.setPw sentinelWord)) := rfl

theorem exec_encMsg (seq chn : Operand) (txt : Text) (s : State) :
    exec (.encMsg seq chn txt) s = .next (beginFrame .msg (s.setMb (packMB seq chn txt))) := rfl

theorem exec_encMsgBcast (seq : Operand) (txt : Text) (s : State) :
    exec (.encMsgBcast seq txt) s = .next (beginFrame .msg (s.setMb (packMB seq bcastChn txt))) := rfl

/-- Settles O1: the decoder's four rows, and what the acceptance of each row's command writes. -/
theorem commandMapSelectsEachCommand : Obligations.CommandMapSelectsEachCommand := by
  refine fun c s => ⟨fun h => ⟨decode_of_op_00 h, ?_⟩, fun h => ⟨decode_of_op_01 h, ?_⟩,
    fun h => ⟨decode_of_op_10 h, ?_⟩, fun h => ⟨decode_of_op_11 h, ?_⟩⟩
  · rw [decode_of_op_00 h, exec_encRi]; exact ⟨_, rfl, rfl, rfl⟩
  · rw [decode_of_op_01 h, exec_encRiSentinel]; exact ⟨_, rfl, rfl, rfl⟩
  · rw [decode_of_op_10 h, exec_encMsg]; exact ⟨_, rfl, rfl, rfl⟩
  · rw [decode_of_op_11 h, exec_encMsgBcast]; exact ⟨_, rfl, rfl, rfl⟩

/-- Ports that agree on CMD_OP and on what its command lists carry the same command. -/
theorem decode_congr {c c' : CommandPorts} (hop : c.op = c'.op)
    (hri : c.op = 0b00#2 → c.a0 = c'.a0 ∧ c.a1 = c'.a1 ∧ c.a2 = c'.a2 ∧ c.a3 = c'.a3 ∧ c.a4 = c'.a4 ∧ c.a5 = c'.a5)
    (hmsg : c.op = 0b10#2 → c.a0 = c'.a0 ∧ c.a1 = c'.a1 ∧ c.txt = c'.txt)
    (hbcast : c.op = 0b11#2 → c.a0 = c'.a0 ∧ c.txt = c'.txt) : decode c = decode c' := by
  rcases op_cases c.op with h | h | h | h
  · obtain ⟨h0, h1, h2, h3, h4, h5⟩ := hri h
    rw [decode_of_op_00 h, decode_of_op_00 (hop ▸ h), h0, h1, h2, h3, h4, h5]
  · rw [decode_of_op_01 h, decode_of_op_01 (hop ▸ h)]
  · obtain ⟨h0, h1, htxt⟩ := hmsg h
    rw [decode_of_op_10 h, decode_of_op_10 (hop ▸ h), h0, h1, htxt]
  · obtain ⟨h0, htxt⟩ := hbcast h
    rw [decode_of_op_11 h, decode_of_op_11 (hop ▸ h), h0, htxt]

/-- Settles O2: the two offers are the same command, so they have the same effect and frame. -/
theorem onlyListedPortsMatter : Obligations.OnlyListedPortsMatter := by
  intro c c' s hop hri hmsg hbcast
  rw [decode_congr hop hri hmsg hbcast]
  exact ⟨rfl, rfl⟩

/-! ### What every frame keeps to (30_encoding.md R71, R72, R75) -/

/-- A command's frame is that of payloads that keep R36: an acceptance from the reset state, which keeps it, leaves
them in the payload registers. -/
theorem commandFrame_payload_sound (i : Instr) :
    ∃ w m, commandFrame i = frameBytes (commandKind i) w m ∧ PwSound w ∧ MbSound m := by
  obtain ⟨t, ht, -, hk, -, -, -, -, -, -, -, hf⟩ := exec_next i State.reset
  obtain ⟨-, -, hw, hm⟩ := State.sound_iff.1 (exec_keeps_sound reset_sound ht)
  exact ⟨t.pw, t.mb, by rw [← hf, hk], hw, hm⟩

/-- The top byte of a payload word that keeps R36 is bit 24 alone, or the sentinel's. -/
theorem PwSound.top_byte {w : Word} (h : PwSound w) :
    w.extractLsb' 24 8 = 0x00#8 ∨ w.extractLsb' 24 8 = 0x01#8 ∨ w.extractLsb' 24 8 = 0xFF#8 := by
  rcases h with htop | rfl
  · have hbyte : w.extractLsb' 24 8 = w.extractLsb' 25 7 ++ w.extractLsb' 24 1 :=
      (BitVec.extractLsb'_append_extractLsb'_eq_extractLsb' (start₁ := 24) (len₁ := 1) (len₂ := 7) rfl).symm
    rw [hbyte, htop]
    rcases BitVec.eq_zero_or_eq_one (w.extractLsb' 24 1) with hbit | hbit <;> rw [hbit] <;> decide
  · decide

/-- A flags byte with bit 7 = 0 is below 0x80. -/
theorem MbSound.flags_le {m : MsgPayload} (h : MbSound m) : m.b0.toNat ≤ 0x7F := by
  obtain ⟨hbit, -, -⟩ := h
  have hlt : 2 * m.b0.toNat < 2 ^ 8 := BitVec.msb_eq_false_iff_two_mul_lt.1 hbit
  omega

/-- Settles O20: the places of the frame's bytes, and the ranges that R36 gives the payload in them. -/
theorem frameBytesStayInTheirRanges : Obligations.FrameBytesStayInTheirRanges := by
  intro i
  obtain ⟨w, m, hf, hw, hm⟩ := commandFrame_payload_sound i
  rw [length_commandFrame, hf]
  refine ⟨rfl, fun hk => ?_, fun hk => ?_⟩
  · rw [hk]
    exact ⟨rfl, rfl, rfl, hw.top_byte.imp (congrArg some) (Or.imp (congrArg some) (congrArg some))⟩
  · have ⟨_, hlast, _⟩ := hm
    rw [hk]
    exact ⟨rfl, rfl, rfl, congrArg some hlast, m.b0, rfl, hm.flags_le⟩

/-- Operands that agree mod 2^w have the same field of width w (30_encoding.md R63). -/
theorem field_congr {w : Nat} {a b : Operand} (h : a.toNat % 2 ^ w = b.toNat % 2 ^ w) : field w a = field w b := by
  apply BitVec.eq_of_toNat_eq
  simpa [field] using h

/-- A channel whose low four bits are 1111 packs as the broadcast channel (40_bitfield_packer.md R86). -/
theorem packMB_eq_bcast {chn : Operand} (h : chn.toNat % 16 = 15) (seq : Operand) (x : Text) :
    packMB seq chn x = packMB seq bcastChn x := by
  have hfield : field 4 chn = field 4 bcastChn := field_congr h
  rw [packMB, packMB, packFlags, packFlags, hfield]

theorem commandFrame_encMsg_eq_bcast {chn : Operand} (h : chn.toNat % 16 = 15) (seq : Operand) (x : Text) :
    commandFrame (.encMsg seq chn x) = commandFrame (.encMsgBcast seq x) := by
  rw [commandFrame, commandFrame, packMB_eq_bcast h]

/-- Settles O21: both commands have the same payload, and nothing else of them differs. -/
theorem explicitChannelFifteenIsBroadcast : Obligations.ExplicitChannelFifteenIsBroadcast := by
  intro seq chn x s h
  exact ⟨by rw [exec_encMsg, exec_encMsgBcast, packMB_eq_bcast h], commandFrame_encMsg_eq_bcast h seq x⟩

/-! ### The assembler (30_encoding.md R73, R74) -/

theorem literalFits_iff {n : Nat} : literalFits n = true ↔ n < 2 ^ 32 := by
  rw [literalFits, Config.operandWidth, decide_eq_true_iff]

/-- A literal that fits stands on its port unchanged. -/
theorem toNat_operandOf {n : Nat} (h : n < 2 ^ 32) : (operandOf n).toNat = n := by
  rw [operandOf, BitVec.toNat_ofNat, Nat.mod_eq_of_lt h]

/-- The lanes hold the first six bytes of the text, then 0x00. -/
theorem lanes_textOf : ∀ text : List Byte,
    lanes (textOf text) = text.take 6 ++ List.replicate (6 - text.length) 0x00#8
  | [] | [_] | [_, _] | [_, _, _] | [_, _, _, _] | [_, _, _, _, _] => rfl
  | _ :: _ :: _ :: _ :: _ :: _ :: _ => by simp [lanes, textOf]

theorem wf_encRi_iff {pos lap secs hunds started chn : Nat} :
    (AsmCommand.encRi pos lap secs hunds started chn).wf = true ↔ pos < 2 ^ 32 ∧ lap < 2 ^ 32 ∧ secs < 2 ^ 32
      ∧ hunds < 2 ^ 32 ∧ started < 2 ^ 32 ∧ chn < 2 ^ 32 := by
  simp only [AsmCommand.wf, Bool.and_eq_true, literalFits_iff, and_assoc]

theorem wf_encMsg_iff {text : List Byte} {seq chn : Nat} :
    (AsmCommand.encMsg text seq chn).wf = true ↔ seq < 2 ^ 32 ∧ chn < 2 ^ 32 := by
  simp only [AsmCommand.wf, Bool.and_eq_true, literalFits_iff]

theorem wf_encMsgBcast_iff {text : List Byte} {seq : Nat} :
    (AsmCommand.encMsgBcast text seq).wf = true ↔ seq < 2 ^ 32 := literalFits_iff

theorem assemble_of_not_wf {a : AsmCommand} (h : ¬ a.wf = true) : assemble a = .error .literalTooLarge := if_neg h

theorem assemble_encRi {pos lap secs hunds started chn : Nat}
    (h : (AsmCommand.encRi pos lap secs hunds started chn).wf = true) :
    assemble (.encRi pos lap secs hunds started chn) = .ok (.encRi (operandOf pos) (operandOf lap) (operandOf secs)
      (operandOf hunds) (operandOf started) (operandOf chn)) := if_pos h

theorem assemble_encMsg {text : List Byte} {seq chn : Nat} (hseq : seq < 2 ^ 32) (hchn : chn < 2 ^ 32) :
    assemble (.encMsg text seq chn) = .ok (.encMsg (operandOf seq) (operandOf chn) (textOf text)) :=
  if_pos (wf_encMsg_iff.2 ⟨hseq, hchn⟩)

theorem assemble_encMsgBcast {text : List Byte} {seq : Nat} (hseq : seq < 2 ^ 32) :
    assemble (.encMsgBcast text seq) = .ok (.encMsgBcast (operandOf seq) (textOf text)) :=
  if_pos (wf_encMsgBcast_iff.2 hseq)

/-- Settles O48: a line assembles exactly when its literals fit, and then its ports are those of R62 and R73. -/
theorem assemblerChecksLiteralsAndCutsText : Obligations.AssemblerChecksLiteralsAndCutsText := by
  refine ⟨fun pos lap secs hunds started chn => ⟨fun hbig => ?_, fun h0 h1 h2 h3 h4 h5 => ?_⟩,
    ⟨_, rfl, rfl, rfl, rfl, rfl, rfl, rfl, rfl, rfl⟩,
    fun text seq chn => ⟨fun hbig => ?_, fun hseq hchn => ?_⟩, fun text seq => ⟨fun hbig => ?_, fun hseq => ?_⟩⟩
  · exact assemble_of_not_wf (by rw [wf_encRi_iff]; omega)
  · rw [assemble_encRi (wf_encRi_iff.2 ⟨h0, h1, h2, h3, h4, h5⟩)]
    exact ⟨_, rfl, rfl, toNat_operandOf h0, toNat_operandOf h1, toNat_operandOf h2, toNat_operandOf h3,
      toNat_operandOf h4, toNat_operandOf h5, rfl⟩
  · exact assemble_of_not_wf (by rw [wf_encMsg_iff]; omega)
  · rw [assemble_encMsg hseq hchn]
    exact ⟨_, rfl, rfl, toNat_operandOf hseq, toNat_operandOf hchn, lanes_textOf text, rfl, rfl, rfl, rfl⟩
  · exact assemble_of_not_wf (by rw [wf_encMsgBcast_iff]; omega)
  · rw [assemble_encMsgBcast hseq]
    exact ⟨_, rfl, rfl, toNat_operandOf hseq, rfl, lanes_textOf text, rfl, rfl, rfl, rfl⟩

/-- Fewer than six values are not six, so they are discarded for the sentinel. -/
theorem expand_of_length_lt {values : List Nat} (h : values.length < 6) :
    expand (.encodeRaceInfo values) = .ok .encRiSentinel := by
  have hne : ∀ pos lap secs hunds started chn, values ≠ [pos, lap, secs, hunds, started, chn] := by
    rintro _ _ _ _ _ _ rfl
    exact absurd h (by simp)
  rw [expand]
  · exact if_pos h
  · exact hne

/-- Settles O49: the rows of R74, and for its last sentence that channel 15 is the broadcast channel. -/
theorem pseudoInstructionsExpand : Obligations.PseudoInstructionsExpand := by
  refine ⟨fun _ _ _ _ _ _ => rfl, fun _ => expand_of_length_lt, fun _ _ _ => ⟨rfl, rfl⟩, fun text s hs => ?_⟩
  have hchn : (operandOf 15).toNat % 16 = 15 := by decide
  rw [assemble_encMsg hs (by decide), assemble_encMsgBcast hs]
  exact congrArg Except.ok (commandFrame_encMsg_eq_bcast hchn (operandOf s) (textOf text))

end Sys2Proof.Machine

/-! The obligations of 40_bitfield_packer.md: PackRI and UnpackRI (R81 to R85), PackFlags (R86), CopyText (R87) and
PackMB (R88). -/

namespace Sys2Proof.Machine

/-! ### Fields (40_bitfield_packer.md R82) -/

theorem toNat_field (w : Nat) (a : Operand) : (field w a).toNat = a.toNat % 2 ^ w := by
  simp [field]

/-- A field's own value, driven on a port, is read back. -/
theorem field_setWidth {w : Nat} (hw : w ≤ 32) (x : BitVec w) : field w (x.setWidth 32) = x := by
  rw [field, ← BitVec.setWidth_eq_extractLsb' hw, BitVec.setWidth_setWidth_of_le x hw, BitVec.setWidth_eq]

/-- An operand in its field's range is the field's value. -/
theorem setWidth_field_of_lt {w : Nat} {a : Operand} (h : a.toNat < 2 ^ w) : (field w a).setWidth 32 = a := by
  apply BitVec.eq_of_toNat_eq
  rw [BitVec.toNat_setWidth, toNat_field, Nat.mod_eq_of_lt h, Nat.mod_eq_of_lt a.isLt]

/-- The lower part of an append lies below the upper part's lowest bit, so joining the two is adding them. -/
theorem toNat_append_eq_add {v w : Nat} (x : BitVec v) (y : BitVec w) :
    (x ++ y).toNat = x.toNat * 2 ^ w + y.toNat := by
  rw [BitVec.toNat_append, ← Nat.shiftLeft_add_eq_or_of_lt y.isLt, Nat.shiftLeft_eq]

/-- A field shifted to right above the bits placed so far is appended to them. -/
theorem or_shiftLeft_eq_setWidth_append {v w n : Nat} (x : BitVec v) (y : BitVec w) :
    y.setWidth n ||| x.setWidth n <<< w = (x ++ y).setWidth n := by
  rw [BitVec.setWidth_append_eq_shiftLeft_setWidth_or, BitVec.or_comm]

/-! ### PackRI and UnpackRI (40_bitfield_packer.md R81, R84, R85) -/

/-- The fields of PackRI are adjacent: each starts right after the one before it, the first at bit 0. -/
theorem packRI_eq_append (a0 a1 a2 a3 a4 a5 : Operand) :
    packRI a0 a1 a2 a3 a4 a5
      = (field 4 a5 ++ (field 1 a4 ++ (field 7 a3 ++ (field 6 a2 ++ (field 4 a1 ++ field 3 a0))))).setWidth 32 := by
  rw [packRI, or_shiftLeft_eq_setWidth_append, or_shiftLeft_eq_setWidth_append (field 6 a2),
    or_shiftLeft_eq_setWidth_append (field 7 a3), or_shiftLeft_eq_setWidth_append (field 1 a4),
    or_shiftLeft_eq_setWidth_append (field 4 a5)]

/-- Settles O5: PackRI appends its fields, and the number of an append is a sum. -/
theorem packRIIsShiftedSumOfFields : Obligations.PackRIIsShiftedSumOfFields := by
  intro a0 a1 a2 a3 a4 a5
  refine ⟨?_, packRI_top_zero a0 a1 a2 a3 a4 a5⟩
  rw [packRI_eq_append, BitVec.toNat_setWidth_of_le (by decide)]
  simp only [toNat_append_eq_add, toNat_field]
  omega

/-- Each of UnpackRI's slices is exactly one of the fields that PackRI appends. -/
theorem unpackRI_packRI (a0 a1 a2 a3 a4 a5 : Operand) :
    unpackRI (packRI a0 a1 a2 a3 a4 a5)
      = ⟨field 3 a0, field 4 a1, field 6 a2, field 7 a3, field 1 a4, field 4 a5⟩ := by
  -- `-index`: simp's index tells the literal width 25 from the width `v + w` of an append
  simp -index only [packRI_eq_append, unpackRI, BitVec.extractLsb'_setWidth_of_le,
    BitVec.extractLsb'_append_eq_of_add_le, BitVec.extractLsb'_append_eq_of_le, BitVec.extractLsb'_eq_self,
    Nat.reduceAdd, Nat.reduceLeDiff, Nat.reduceSub]

/-- Settles O6: UnpackRI gives back the fields, each its operand cut to the field's width. -/
theorem unpackRecoversTruncatedOperands : Obligations.UnpackRecoversTruncatedOperands := by
  refine fun a0 a1 a2 a3 a4 a5 => ⟨?_, fun _ => rfl⟩
  rw [unpackRI_packRI]
  simp only [field, BitVec.setWidth_eq_extractLsb', Nat.reduceLeDiff]

/-- A word whose top seven bits are 0 is its low 25 bits. -/
theorem setWidth_low_of_top_zero {w : Word} (h : w.extractLsb' 25 7 = 0#7) : (w.extractLsb' 0 25).setWidth 32 = w := by
  calc (w.extractLsb' 0 25).setWidth 32 = 0#7 ++ w.extractLsb' 0 25 := BitVec.setWidth_eq_append (by decide)
    _ = w.extractLsb' 25 7 ++ w.extractLsb' 0 25 := by rw [h]
    _ = w := BitVec.extractLsb'_append_extractLsb' (w := 7) (len := 25)

/-- A word whose top seven bits are 0 is PackRI of its own six fields: they are adjacent slices of its low 25 bits. -/
theorem packRI_unpackRI {w : Word} (h : w.extractLsb' 25 7 = 0#7) {f : RaceFields} (hf : unpackRI w = f) :
    packRI (f.pos.setWidth 32) (f.lap.setWidth 32) (f.secs.setWidth 32) (f.hunds.setWidth 32) (f.started.setWidth 32)
      (f.chn.setWidth 32) = w := by
  subst hf
  simp -index only [packRI_eq_append, field_setWidth, Nat.reduceLeDiff, unpackRI,
    BitVec.extractLsb'_append_extractLsb'_eq_extractLsb', Nat.reduceAdd, setWidth_low_of_top_zero h]

/-- The sentinel's top seven bits are 1, PackRI's are 0. -/
theorem packRI_ne_sentinelWord (a0 a1 a2 a3 a4 a5 : Operand) : packRI a0 a1 a2 a3 a4 a5 ≠ sentinelWord := by
  intro h
  have htop := packRI_top_zero a0 a1 a2 a3 a4 a5
  rw [h] at htop
  exact absurd htop (by decide)

/-- Settles O8: a word is PackRI of its own fields, and UnpackRI gives back every in-range tuple that packs to it. -/
theorem packRIIsBijectionAwayFromSentinel : Obligations.PackRIIsBijectionAwayFromSentinel := by
  refine ⟨fun a0 a1 a2 a3 a4 a5 => ⟨packRI_top_zero a0 a1 a2 a3 a4 a5, packRI_ne_sentinelWord a0 a1 a2 a3 a4 a5⟩,
    fun w h => ?_⟩
  obtain ⟨f, hf⟩ : ∃ f, unpackRI w = f := ⟨_, rfl⟩
  refine ⟨(f.pos.setWidth 32, f.lap.setWidth 32, f.secs.setWidth 32, f.hunds.setWidth 32, f.started.setWidth 32,
    f.chn.setWidth 32), ⟨?_, packRI_unpackRI h hf⟩, ?_⟩
  · simp only [BitVec.toNat_setWidth_of_le, Nat.reduceLeDiff]
    exact ⟨BitVec.isLt _, BitVec.isLt _, BitVec.isLt _, BitVec.isLt _, BitVec.isLt _, BitVec.isLt _⟩
  · rintro ⟨a0, a1, a2, a3, a4, a5⟩ ⟨⟨h0, h1, h2, h3, h4, h5⟩, hw⟩
    rw [← hf, ← hw, unpackRI_packRI, setWidth_field_of_lt h0, setWidth_field_of_lt h1, setWidth_field_of_lt h2,
      setWidth_field_of_lt h3, setWidth_field_of_lt h4, setWidth_field_of_lt h5]

/-! ### PackFlags (40_bitfield_packer.md R86) -/

/-- The two fields of the flags byte are adjacent, and bit 7 is above them. -/
theorem packFlags_eq_append (s c : Operand) : packFlags s c = (field 4 c ++ field 3 s).setWidth 8 := by
  rw [packFlags, or_shiftLeft_eq_setWidth_append]

theorem toNat_packFlags (s c : Operand) : (packFlags s c).toNat = s.toNat % 2 ^ 3 + c.toNat % 2 ^ 4 * 2 ^ 3 := by
  rw [packFlags_eq_append, BitVec.toNat_setWidth_of_le (by decide), toNat_append_eq_add, toNat_field, toNat_field,
    Nat.add_comm]

theorem packFlags_seq (s c : Operand) : (packFlags s c).extractLsb' 0 3 = field 3 s := by
  rw [packFlags_eq_append, BitVec.extractLsb'_setWidth_of_le (by decide), BitVec.extractLsb'_append_eq_right]

theorem packFlags_chn (s c : Operand) : (packFlags s c).extractLsb' 3 4 = field 4 c := by
  rw [packFlags_eq_append, BitVec.extractLsb'_setWidth_of_le (by decide), BitVec.extractLsb'_append_eq_left]

/-- Settles O9: PackFlags appends its two fields; the broadcast channel is 15 at bit 3, which is 0x78. -/
theorem packFlagsPlacesSeqAndChannel : Obligations.PackFlagsPlacesSeqAndChannel :=
  fun s c => ⟨toNat_packFlags s c, packFlags_bit_seven s c, toNat_packFlags s bcastChn⟩

/-! ### Only the low bits of an operand matter (40_bitfield_packer.md R82) -/

/-- Starting a frame leaves the payload just written (42_frame_wrapper.md R115). -/
theorem beginFrame_pw (k : Kind) (s : State) : (beginFrame k s).pw = s.pw := rfl

theorem beginFrame_mb (k : Kind) (s : State) : (beginFrame k s).mb = s.mb := rfl

theorem packMB_b0 (s c : Operand) (t : Text) : (packMB s c t).b0 = packFlags s c := rfl

/-- PackMB reads the low bits of its two operands alone. -/
theorem packMB_congr {s s' c c' : Operand} (hs : s.toNat % 2 ^ 3 = s'.toNat % 2 ^ 3)
    (hc : c.toNat % 2 ^ 4 = c'.toNat % 2 ^ 4) (t : Text) : packMB s c t = packMB s' c' t := by
  rw [packMB, packMB, packFlags, packFlags, field_congr hs, field_congr hc]

/-- Settles O7: operands with the same low bits have the same fields, and the payload is made of the fields. -/
theorem onlyLowBitsOfOperandsMatter : Obligations.OnlyLowBitsOfOperandsMatter := by
  refine ⟨fun a0 a1 a2 a3 a4 a5 b0 b1 b2 b3 b4 b5 s h0 h1 h2 h3 h4 h5 => ⟨_, exec_encRi .., ?_, ?_⟩,
    fun a0 a1 b0 b1 x s h0 h1 => ⟨_, exec_encMsg .., ?_, ?_⟩,
    fun a0 b0 x s h0 => ⟨_, exec_encMsgBcast .., ?_, ?_⟩⟩
  · rw [exec_encRi, packRI, packRI, field_congr h0, field_congr h1, field_congr h2, field_congr h3, field_congr h4,
      field_congr h5]
  · rw [beginFrame_pw, State.setPw_pw, unpackRI_packRI]
    exact ⟨toNat_field .., toNat_field .., toNat_field .., toNat_field .., toNat_field .., toNat_field ..⟩
  · rw [exec_encMsg, packMB_congr h0 h1]
  · rw [beginFrame_mb, State.setMb_mb, packMB_b0, packFlags_seq, packFlags_chn]
    exact ⟨toNat_field .., toNat_field ..⟩
  · rw [exec_encMsgBcast, packMB_congr h0 rfl]
  · rw [beginFrame_mb, State.setMb_mb, packMB_b0, packFlags_seq, toNat_field]

/-! ### CopyText and PackMB (40_bitfield_packer.md R87, R88) -/

/-- The bytes before the first 0x00, then 0x00 up to `n` bytes. -/
def upToZero (n : Nat) (l : List Byte) : List Byte :=
  l.takeWhile (· ≠ 0x00#8) ++ List.replicate (n - (l.takeWhile (· ≠ 0x00#8)).length) 0x00#8

theorem upToZero_nil (n : Nat) : upToZero n [] = List.replicate n 0x00#8 := rfl

/-- The first byte comes out as it is, and clears all bytes after it when it is 0x00. -/
theorem upToZero_cons (n : Nat) (b : Byte) (l : List Byte) :
    upToZero (n + 1) (b :: l) = b :: if b ≠ 0x00#8 then upToZero n l else List.replicate n 0x00#8 := by
  by_cases hb : b = 0x00#8
  · subst hb; rfl
  · simp [upToZero, hb]

/-- Past the end, one more byte is one more 0x00. -/
theorem upToZero_succ {n : Nat} {l : List Byte} (h : l.length ≤ n) :
    upToZero (n + 1) l = upToZero n l ++ [0x00#8] := by
  have hle : (l.takeWhile (· ≠ 0x00#8)).length ≤ n := (List.takeWhile_sublist _).length_le.trans h
  rw [upToZero, Nat.succ_sub hle, List.replicate_succ', ← List.append_assoc, upToZero]

/-- A byte comes out as it is while no byte before it is 0x00, else as 0x00. -/
theorem getElem?_upToZero (l : List Byte) {i : Nat} (hi : i < l.length) :
    (upToZero l.length l)[i]? = if ∀ j < i, l[j]? ≠ some 0x00#8 then l[i]? else some 0x00#8 := by
  induction l generalizing i with
  | nil => exact absurd hi (Nat.not_lt_zero i)
  | cons b l ih =>
    rw [List.length_cons, upToZero_cons]
    cases i with
    | zero => simp
    | succ i =>
      have hi' : i < l.length := Nat.lt_of_succ_lt_succ hi
      have hsplit : (∀ j < i + 1, (b :: l)[j]? ≠ some 0x00#8) ↔ b ≠ 0x00#8 ∧ ∀ j < i, l[j]? ≠ some 0x00#8 := by
        rw [Nat.forall_lt_succ_left]
        simp
      rw [if_congr hsplit rfl rfl, List.getElem?_cons_succ, List.getElem?_cons_succ]
      by_cases hb : b = 0x00#8
      · simp [hb, hi']
      · simp only [ne_eq, hb, not_false_eq_true, if_true, true_and, ih hi']

/-- CopyText clears the lanes after the first 0x00 and nothing else. -/
theorem lanes_copyText (t : Text) : lanes (copyText t) = upToZero 6 (lanes t) := by
  simp only [lanes, copyText, upToZero_cons, upToZero_nil]
  -- which lane is the first 0x00
  by_cases h0 : t.t0 = 0x00#8
  · simp [h0, List.replicate]
  by_cases h1 : t.t1 = 0x00#8
  · simp [h0, h1, List.replicate]
  by_cases h2 : t.t2 = 0x00#8
  · simp [h0, h1, h2, List.replicate]
  by_cases h3 : t.t3 = 0x00#8
  · simp [h0, h1, h2, h3, List.replicate]
  by_cases h4 : t.t4 = 0x00#8 <;> simp [h0, h1, h2, h3, h4]

/-- Settles O10: CopyText is `upToZero` of the lanes, read lane by lane and as a whole. -/
theorem copyTextStopsAtFirstZero : Obligations.CopyTextStopsAtFirstZero := by
  intro t
  rw [lanes_copyText]
  exact ⟨fun _ => getElem?_upToZero (lanes t), rfl⟩

theorem mbBytes_packMB (s c : Operand) (t : Text) :
    mbBytes (packMB s c t) = packFlags s c :: lanes (copyText t) ++ [0x00#8] := rfl

/-- Settles O11: MB[7] = 0x00 is the seventh byte of the text field, one more 0x00 after the six copied lanes. -/
theorem packMBLaysOutPayload : Obligations.PackMBLaysOutPayload := by
  refine fun s c t => ⟨mbBytes_packMB s c t, ?_, ?_⟩
  · rw [toNat_packFlags]; omega
  · have hseven : upToZero 7 (lanes t) = upToZero 6 (lanes t) ++ [0x00#8] := upToZero_succ (by simp [lanes])
    rw [mbBytes_packMB, lanes_copyText, List.cons_append, ← hseven]
    rfl

end Sys2Proof.Machine

/-! The obligations of 41_checksum_accumulator.md: what ACC holds while a frame goes out (R101 to R103), and the closed
form of the checksum byte (R105, R107). -/

namespace Sys2Proof.Machine

/-! ### The accumulator's invariant (41_checksum_accumulator.md R101 to R103) -/

/-- IDX is inside the frame in progress, the part of 10_state.md R36 that the accumulator's invariant needs. -/
abbrev State.InFrame (s : State) : Prop := s.phase = .emit → s.idx.toNat < frameLength s.kind

theorem State.InFrame.congr {s t : State} (h : t.SameBlock s) (hs : s.InFrame) : t.InFrame := by
  obtain ⟨hp, hk, hi, -⟩ := h
  rwa [State.InFrame, hp, hk, hi]

/-- The accumulator's invariant speaks of the block alone. -/
theorem State.Summed.congr {s t : State} (h : t.SameBlock s) (hs : s.Summed) : t.Summed := by
  obtain ⟨hp, hk, hi, hw, hm, ha⟩ := h
  rwa [State.Summed, hp, hk, hi, hw, hm, ha]

/-- The byte at an offset before L-1 is the next after those before it; the preamble is left out. -/
theorem drop_take_succ_frameBytes {s : State} {i : Nat} (hpos : 1 ≤ i) (hlt : i < frameLength s.kind - 1) :
    ((frameBytes s.kind s.pw s.mb).take (i + 1)).drop 1
      = ((frameBytes s.kind s.pw s.mb).take i).drop 1 ++ [frameByteAt s i] := by
  have hlen : 1 ≤ ((frameBytes s.kind s.pw s.mb).take i).length := by
    rw [List.length_take, length_frameBytes]; omega
  rw [List.take_add_one, frameByteAt_eq_frameBytes s i hlt, Option.toList_some, List.drop_append_of_le_length hlen]

/-- So the sum grows by that byte, as ADD makes it grow. -/
theorem checksum_drop_take_succ {s : State} {i : Nat} (hpos : 1 ≤ i) (hlt : i < frameLength s.kind - 1) :
    checksum (((frameBytes s.kind s.pw s.mb).take (i + 1)).drop 1)
      = checksum (((frameBytes s.kind s.pw s.mb).take i).drop 1) + frameByteAt s i := by
  rw [drop_take_succ_frameBytes hpos hlt, checksum_append]

/-- Nothing past the preamble has gone out while IDX is 0 or 1. -/
theorem checksum_drop_take_of_le_one (l : List Byte) {i : Nat} (h : i ≤ 1) :
    checksum ((l.take i).drop 1) = 0x00#8 := by
  rw [List.drop_eq_nil_of_le (by rw [List.length_take]; omega), checksum_nil]

theorem frameByteAt_one (s : State) : frameByteAt s 1 = frameType s.kind := rfl

/-- A transfer before offset L-1 moves IDX on by one: four bits hold it. -/
theorem transfer_idx_toNat {s : State} (hlt : s.idx.toNat < frameLength s.kind - 1) :
    (transfer s).idx.toNat = s.idx.toNat + 1 := by
  obtain ⟨-, -, -, -, -, -, -, hidx, -⟩ := transfer_spec s
  have hL := frameLength_lt s.kind
  rw [hidx, if_neg hlt.ne, BitVec.toNat_add_of_lt (by simp; omega)]
  rfl

/-- The transfer of offset 0 leaves ACC at the sum of no byte, that of offset 1 seeds it with the one byte of the sum,
and the later ones add theirs; the transfer of offset L-1 ends the frame. -/
theorem transfer_keeps_summed {s : State} (hp : s.phase = .emit) (hi : s.idx.toNat < frameLength s.kind)
    (hs : s.Summed) : (transfer s).Summed := by
  intro hgo
  have hnotLast : s.idx.toNat ≠ frameLength s.kind - 1 := fun hlast =>
    nomatch ((transfer_phase_eq_idle hp).2 hlast).symm.trans hgo
  have hlt : s.idx.toNat < frameLength s.kind - 1 := by omega
  obtain ⟨-, hk, hw, hm, -, -, hacc, -⟩ := transfer_spec s
  rw [hacc, hk, hw, hm, transfer_idx_toNat hlt, frameByte]
  rcases Nat.lt_trichotomy s.idx.toNat 1 with hzero | hone | hadd
  · rw [if_neg hzero.ne, if_neg (by omega), hs hp, checksum_drop_take_of_le_one _ hzero.le,
      checksum_drop_take_of_le_one _ hzero]
  · rw [if_pos hone, checksum_drop_take_succ hone.ge hlt, checksum_drop_take_of_le_one _ hone.le, hone,
      frameByteAt_one, BitVec.zero_add]
  · rw [if_neg hadd.ne', if_pos (by omega), hs hp, checksum_drop_take_succ hadd.le hlt]

theorem transfer_keeps_inFrame {s : State} (hp : s.phase = .emit) (hi : s.idx.toNat < frameLength s.kind) :
    (transfer s).InFrame := by
  intro hgo
  obtain ⟨-, hk, -⟩ := transfer_spec s
  rcases transfer_keeps_offset hp hi with ⟨hend, -⟩ | ⟨-, hlt⟩
  · exact nomatch hend.symm.trans hgo
  · rwa [hk]

/-- CLEAR at an acceptance: at offset 0, ACC is the sum of no byte (R101). -/
theorem exec_inFrame_summed {i : Instr} {s t : State} (h : exec i s = .next t) : t.InFrame ∧ t.Summed := by
  obtain ⟨u, hu, -, -, hidx, hacc, -⟩ := exec_next i s
  cases hu.symm.trans h
  refine ⟨fun _ => ?_, fun _ => ?_⟩
  · rw [hidx]
    exact frameLength_pos t.kind
  · rw [hacc, hidx, checksum_drop_take_of_le_one _ (by decide)]

/-- A step keeps both, whatever its event. -/
theorem step_keeps_inFrame_summed {s t : State} (hoff : s.InFrame) (hs : s.Summed) (h : step s = .next t) :
    t.InFrame ∧ t.Summed := by
  have hoff' : s.consume.InFrame := hoff.congr s.consume_sameBlock
  have hs' : s.consume.Summed := hs.congr s.consume_sameBlock
  cases he : eventOf s with
  | reset =>
    cases (step_reset he).symm.trans h
    exact ⟨nofun, reset_summed.congr (resetBlock_sameBlock _)⟩
  | accept i => exact exec_inFrame_summed ((step_accept he).symm.trans h)
  | transfer =>
    cases (step_transfer he).symm.trans h
    have hp : s.consume.phase = .emit := s.consume_phase.trans (eventOf_eq_transfer.1 he).2.1
    exact ⟨transfer_keeps_inFrame hp (hoff' hp), transfer_keeps_summed hp (hoff' hp) hs'⟩
  | idle => cases (step_idle he).symm.trans h; exact ⟨hoff', hs'⟩

/-- Settles O39: the step lemma of the two invariants. -/
theorem stepKeepsAccumulatorSum : Obligations.StepKeepsAccumulatorSum := fun _ _ => step_keeps_inFrame_summed

/-! ### The checksum byte (41_checksum_accumulator.md R105, R107) -/

/-- The checksum covers the frame without the preamble and without the checksum itself. -/
theorem drop_take_frameBytes (k : Kind) (w : Word) (m : MsgPayload) :
    ((frameBytes k w m).take (frameLength k - 1)).drop 1 = summedBytes k w m := by
  cases k <;> rfl

theorem toNat_checksum (l : List Byte) : (checksum l).toNat = (l.map BitVec.toNat).sum % 256 := BitVec.toNat_ofNat ..

/-- The wrapper selects the summed bytes at the offsets 1..L-2 (42_frame_wrapper.md R110). -/
theorem map_frameByteAt_eq_summedBytes (s : State) :
    (List.range (frameLength s.kind - 2)).map (fun i => frameByteAt s (i + 1)) = summedBytes s.kind s.pw s.mb := by
  obtain ⟨_, kind⟩ := s
  cases kind <;> rfl

/-- The sum is the payload's, between the type byte and the terminator. -/
theorem sum_summedBytes (k : Kind) (w : Word) (m : MsgPayload) :
    ((summedBytes k w m).map BitVec.toNat).sum
      = (frameType k).toNat + ((payload k w m).map BitVec.toNat).sum + terminator.toNat := by
  simp [summedBytes, Nat.add_assoc]

/-- At offset L-1 FrameByte is ACC, which has summed all the bytes before it but the preamble. -/
theorem toNat_frameByte_last {s : State} (hp : s.phase = .emit) (hs : s.Summed)
    (hlast : s.idx.toNat = frameLength s.kind - 1) :
    (frameByte s).toNat = ((summedBytes s.kind s.pw s.mb).map BitVec.toNat).sum % 256 := by
  rw [frameByte, hlast, frameByteAt_last, hs hp, hlast, drop_take_frameBytes, toNat_checksum]

/-- Settles O40: the type byte and the terminator add 0x158 to the sum of an RI payload, 0x159 to that of an MSG one. -/
theorem checksumByteIsClosedForm : Obligations.ChecksumByteIsClosedForm := by
  intro s hp hs hlast
  rw [toNat_frameByte_last hp hs hlast]
  refine ⟨?_, fun hk => ?_, fun hk => ?_⟩
  · rw [← map_frameByteAt_eq_summedBytes, List.map_map]
    rfl
  · rw [hk, sum_summedBytes]
    change (0x5A + ((pwBytes s.pw).map BitVec.toNat).sum + 0xFE) % 256 = _
    omega
  · rw [hk, sum_summedBytes]
    change (0x5B + ((mbBytes s.mb).map BitVec.toNat).sum + 0xFE) % 256 = _
    omega

end Sys2Proof.Machine

/-! The obligations of 42_frame_wrapper.md: the multiplexer (R110), the events of a step and what each does (R112 to
R117), the stable output (R111), and the output as a queue that holds one frame (R118). -/

namespace Sys2Proof.Machine

/-! ### The multiplexer (42_frame_wrapper.md R110) -/

/-- At every offset of the frame FrameByte selects from the preamble, the summed bytes and ACC. -/
theorem getElem?_frame_with_acc (s : State) {i : Nat} (hi : i < frameLength s.kind) :
    (preamble :: summedBytes s.kind s.pw s.mb ++ [s.acc])[i]? = some (frameByteAt s i) := by
  have hlen : (preamble :: summedBytes s.kind s.pw s.mb).length = frameLength s.kind - 1 := by cases s.kind <;> rfl
  by_cases hlast : i = frameLength s.kind - 1
  · rw [hlast, frameByteAt_last, List.getElem?_append_right hlen.le, hlen, Nat.sub_self]
    rfl
  · have hlt : i < frameLength s.kind - 1 := by omega
    rw [← frameByteAt_eq_frameBytes s i hlt, frameBytes, List.getElem?_append_left (hlen ▸ hlt),
      List.getElem?_append_left (hlen ▸ hlt)]

/-- Settles O22: the frame of each kind, written out. -/
theorem frameByteSelectsEachOffset : Obligations.FrameByteSelectsEachOffset := by
  refine fun s => ⟨fun hk hi => ?_, fun hk hi => ?_, fun hp => outData_of_valid (outValid_iff.2 hp)⟩
  · rw [frameByte, ← getElem?_frame_with_acc s (by rwa [hk]), hk]
    rfl
  · rw [frameByte, ← getElem?_frame_with_acc s (by rwa [hk]), hk]
    rfl

/-! ### The event of a step (42_frame_wrapper.md R112, R113, R119) -/

/-- Settles O24: what selects each of the four events. -/
theorem firstConditionSelectsEvent : Obligations.FirstConditionSelectsEvent := fun _ =>
  ⟨eventOf_eq_reset.2, fun hr hp hv => eventOf_eq_accept.2 ⟨hr, hp, hv, rfl⟩,
    fun hr hp ho => eventOf_eq_transfer.2 ⟨hr, hp, ho⟩,
    fun hr hp hv => eventOf_eq_idle.2 ⟨hr, fun _ => hv, fun hp' => nomatch hp.symm.trans hp'⟩,
    fun hr hp ho => eventOf_eq_idle.2 ⟨hr, fun hp' => (nomatch hp.symm.trans hp'), fun _ => ho⟩⟩

/-- Settles O15: the offer is accepted, with its own inputs used up. -/
theorem stepRunsDecodedCommand : Obligations.StepRunsDecodedCommand := by
  refine ⟨fun s hp hr hv => step_accept (eventOf_eq_accept.2 ⟨hr, hp, hv, rfl⟩), fun s nbits w i hi => ?_⟩
  have hi' : i = decode (portsOfTableWord nbits w) := (Option.some_injective _ hi).symm
  have he : eventOf (s.withFetchWord nbits w) = .accept i := eventOf_eq_accept.2 ⟨rfl, rfl, rfl, hi'⟩
  rw [step_accept he, State.withFetchWord, offer_consume]

/-- Settles O28: an acceptance needs PHASE = IDLE; without it and without reset OUT_READY selects the event. -/
theorem offerWhileBusyIsNotAccepted : Obligations.OfferWhileBusyIsNotAccepted := by
  refine fun s i => ⟨?_, fun hp hr => ⟨by rw [cmdReady, hp]; rfl, fun ho => ?_, fun ho => ?_⟩⟩
  · rw [eventOf_eq_accept, cmdReady_iff]
    tauto
  · have he : eventOf s = .idle := eventOf_eq_idle.2 ⟨hr, fun h => (nomatch hp.symm.trans h), fun _ => ho⟩
    exact ⟨_, step_idle he, s.consume_sameBlock, s.consume_sent⟩
  · exact step_transfer (eventOf_eq_transfer.2 ⟨hr, hp, ho⟩)

/-! ### The acceptance (42_frame_wrapper.md R115) -/

/-- What an acceptance writes into KIND, PW and MB, by CMD_OP. -/
theorem exec_decode_writes {c : CommandPorts} {s t : State} (h : exec (decode c) s = .next t) :
    (t.kind = .ri ↔ c.op.getLsbD 1 = false)
      ∧ (t.pw = if c.op = 0b00#2 then packRI c.a0 c.a1 c.a2 c.a3 c.a4 c.a5
          else if c.op = 0b01#2 then sentinelWord else s.pw)
      ∧ (t.mb = if c.op = 0b10#2 then packMB c.a0 c.a1 c.txt
          else if c.op = 0b11#2 then packMB c.a0 bcastChn c.txt else s.mb) := by
  rcases op_cases c.op with hop | hop | hop | hop
  · rw [decode_of_op_00 hop, exec_encRi] at h
    cases h
    rw [hop]
    exact ⟨iff_of_true rfl (by decide), rfl, rfl⟩
  · rw [decode_of_op_01 hop, exec_encRiSentinel] at h
    cases h
    rw [hop]
    exact ⟨iff_of_true rfl (by decide), rfl, rfl⟩
  · rw [decode_of_op_10 hop, exec_encMsg] at h
    cases h
    rw [hop]
    exact ⟨iff_of_false (by decide : Kind.msg ≠ .ri) (by decide), rfl, rfl⟩
  · rw [decode_of_op_11 hop, exec_encMsgBcast] at h
    cases h
    rw [hop]
    exact ⟨iff_of_false (by decide : Kind.msg ≠ .ri) (by decide), rfl, rfl⟩

/-- Settles O14: the step is the acceptance of the decoded command, and the byte at offset 0 is the preamble. -/
theorem acceptanceStepStartsFrame : Obligations.AcceptanceStepStartsFrame := by
  intro s hp hr hv
  have he : eventOf s = .accept (decode s.inputs.cmd) := eventOf_eq_accept.2 ⟨hr, hp, hv, rfl⟩
  obtain ⟨t, ht, hemit, -, hidx, hacc, -, -, hsent, -⟩ := exec_next (decode s.inputs.cmd) s.consume
  obtain ⟨hkind, hpw, hmb⟩ := exec_decode_writes ht
  have hbyte : frameByte t = 0xFC#8 := by rw [frameByte, hidx]; rfl
  have hout : outData t = some 0xFC#8 := by rw [outData_of_valid (outValid_iff.2 hemit), hbyte]
  rw [s.consume_pw] at hpw
  rw [s.consume_mb] at hmb
  exact ⟨t, (step_accept he).trans ht, ht, hkind, hidx, hacc, hemit, hsent.trans s.consume_sent, hout, hpw, hmb⟩

/-! ### The transfer (42_frame_wrapper.md R116, R117) -/

/-- The transfer of a step, in terms of the state before the step. -/
theorem transfer_consume_spec (s : State) :
    (transfer s.consume).SameBlock (transfer s) ∧ (transfer s.consume).sent = s.sent ++ [frameByte s] := by
  refine ⟨transfer_sameBlock s.consume_sameBlock, ?_⟩
  rw [(transfer_spec _).1, frameByte_consume, s.consume_sent]

/-- Settles O25: the effect of a transfer, with ADD and IDX + 1 as arithmetic on numbers. -/
theorem transferStepEffect : Obligations.TransferStepEffect := by
  intro s hp hr ho
  obtain ⟨⟨hphase, hkind, hidx, hpw, hmb, hacc⟩, hsent⟩ := transfer_consume_spec s
  obtain ⟨-, hkind', hpw', hmb', -, -, hacc', hidx', hphase'⟩ := transfer_spec s
  have hadd : BitVec.ofNat 8 ((s.acc.toNat + (frameByte s).toNat) % 256) = s.acc + frameByte s :=
    BitVec.eq_of_toNat_eq (by simp)
  refine ⟨_, step_transfer (eventOf_eq_transfer.2 ⟨hr, hp, ho⟩), hsent, hkind.trans hkind', hpw.trans hpw',
    hmb.trans hmb', by rw [hacc, hacc', hadd], fun hlast => ?_, fun hnot => ?_⟩
  · rw [hidx, hidx', hphase, hphase', if_pos hlast, if_pos hlast]
    exact ⟨rfl, rfl⟩
  · rw [hidx, hidx', hphase, hphase', if_neg hnot, if_neg hnot]
    exact ⟨hp, BitVec.toNat_add ..⟩

/-! ### Steps that do nothing (42_frame_wrapper.md R111, R114) -/

theorem eventsIn_succ_all_idle {k : Nat} {s : State} :
    (∀ e ∈ eventsIn (k + 1) s, e = .idle) ↔ eventOf s = .idle ∧ ∀ e ∈ eventsIn k s.consume, e = .idle := by
  obtain ⟨t, ht⟩ := step_next s
  rw [eventsIn_succ ht, List.forall_mem_cons]
  refine and_congr_right fun he => ?_
  cases (step_idle he).symm.trans ht
  rfl

/-- A run of idle steps, however many, leaves the block and the output. -/
theorem runFor_of_all_idle {k : Nat} {s : State} (h : ∀ e ∈ eventsIn k s, e = .idle) :
    ∃ t, runFor k s = .next t ∧ t.SameBlock s ∧ t.sent = s.sent := by
  induction k generalizing s with
  | zero => exact ⟨s, rfl, ⟨rfl, rfl, rfl, rfl, rfl, rfl⟩, rfl⟩
  | succ k ih =>
    obtain ⟨he, hrest⟩ := eventsIn_succ_all_idle.1 h
    rw [runFor_succ (step_idle he)]
    simpa [State.SameBlock] using ih hrest

/-- With no command offered in IDLE, or the sink not ready in EMIT, and no reset, all events are idle. -/
theorem eventsIn_all_idle_of_inputs {k : Nat} {s : State}
    (h : ∀ inp ∈ inputsIn k s, inp.rst = false ∧ (s.phase = .idle → inp.cmdValid = false)
      ∧ (s.phase = .emit → inp.outReady = false)) : ∀ e ∈ eventsIn k s, e = .idle := by
  induction k generalizing s with
  | zero => exact nofun
  | succ k ih =>
    rw [inputsIn, List.forall_mem_cons] at h
    exact eventsIn_succ_all_idle.2 ⟨eventOf_eq_idle.2 h.1, ih (by simpa using h.2)⟩

/-- Settles O27: such steps are idle. -/
theorem idleStepsWriteNothing : Obligations.IdleStepsWriteNothing := fun _ _ h =>
  runFor_of_all_idle (eventsIn_all_idle_of_inputs h)

/-- Settles O26: a transfer at offset L-1, where the byte is ACC, and then idle steps. -/
theorem checksumTransferEndsFrame : Obligations.ChecksumTransferEndsFrame := by
  intro s hp hr ho hlast
  obtain ⟨t, ht, hsent, hkind, hpw, hmb, hacc, hend, -⟩ := transferStepEffect s hp hr ho
  have hle : ¬ s.idx.toNat ≤ frameLength s.kind - 2 := by rw [hlast]; cases s.kind <;> decide
  have hone : s.idx.toNat ≠ 1 := by rw [hlast]; cases s.kind <;> decide
  rw [if_neg hone, if_neg fun h => hle h.2] at hacc
  obtain ⟨hidx, hphase⟩ := hend hlast
  rw [frameByte, hlast, frameByteAt_last] at hsent
  refine ⟨t, ht, hsent, hphase, hidx, cmdReady_iff.2 hphase, hkind, hpw, hmb, hacc, fun k hidle => ?_⟩
  obtain ⟨u, hu, hblock, hsent'⟩ := runFor_of_all_idle hidle
  exact ⟨u, hu, cmdReady_iff.2 (hblock.1.trans hphase), hblock, hsent'⟩

/-! ### Runs: resets, transfers and acceptances by one step -/

theorem noReset_succ {k : Nat} {s t : State} (h : step s = .next t) :
    NoReset (k + 1) s ↔ eventOf s ≠ .reset ∧ NoReset k t := by
  rw [NoReset, eventsIn_succ h, List.mem_cons, not_or, ne_comm]

theorem transfersIn_succ {k : Nat} {s t : State} (h : step s = .next t) :
    transfersIn (k + 1) s = transfersIn k t + if eventOf s = .transfer then 1 else 0 := by
  rw [transfersIn, eventsIn_succ h, List.count_cons, transfersIn]
  simp only [beq_iff_eq]

theorem acceptedIn_succ {k : Nat} {s t : State} (h : step s = .next t) :
    acceptedIn (k + 1) s = (eventOf s).command?.toList ++ acceptedIn k t := by
  rw [acceptedIn, eventsIn_succ h, acceptedIn]
  cases eventOf s <;> rfl

/-- In EMIT, steps without reset and without transfer are idle: the block is busy, so it accepts nothing. -/
theorem eventsIn_all_idle_of_emit {k : Nat} {s : State} (hp : s.phase = .emit) (hr : NoReset k s)
    (hn : transfersIn k s = 0) : ∀ e ∈ eventsIn k s, e = .idle := by
  induction k generalizing s with
  | zero => exact nofun
  | succ k ih =>
    obtain ⟨t, ht⟩ := step_next s
    rw [noReset_succ ht] at hr
    rw [transfersIn_succ ht, Nat.add_eq_zero_iff] at hn
    obtain ⟨hnotReset, hr⟩ := hr
    obtain ⟨hn, hnotTransfer⟩ := hn
    have he : eventOf s = .idle := by
      cases he : eventOf s with
      | reset => exact absurd he hnotReset
      | accept i => exact nomatch hp.symm.trans (eventOf_eq_accept.1 he).2.1
      | transfer => simp [he] at hnotTransfer
      | idle => rfl
    cases (step_idle he).symm.trans ht
    exact eventsIn_succ_all_idle.2 ⟨he, ih (by simpa using hp) hr hn⟩

/-- Settles O30: until the transfer all steps are stalls, which leave the byte shown. -/
theorem outputIsStableUntilTransferred : Obligations.OutputIsStableUntilTransferred := by
  intro k s hv hr hn
  obtain ⟨t, ht, hblock, hsent⟩ := runFor_of_all_idle (eventsIn_all_idle_of_emit (outValid_iff.1 hv) hr hn)
  have hbyte := frameByte_congr_of_sameBlock hblock
  obtain ⟨-, hvalid, hdata⟩ := ports_congr hblock.1 fun _ => hbyte
  refine ⟨t, ht, hvalid.trans hv, hdata, fun he => ⟨_, frameByte s, step_transfer he, outData_of_valid hv, ?_⟩⟩
  rw [(transfer_consume_spec t).2, hbyte, hsent]

/-! ### What the block owes the sink (42_frame_wrapper.md R118) -/

theorem owed_of_idle {s : State} (hp : s.phase = .idle) : owed s = [] := by rw [owed, hp]

theorem owed_of_emit {s : State} (hp : s.phase = .emit) :
    owed s = (frameBytes s.kind s.pw s.mb).drop s.idx.toNat := by rw [owed, hp]

theorem owed_congr {s t : State} (h : s.SameBlock t) : owed s = owed t := by
  obtain ⟨hp, hk, hi, hw, hm, -⟩ := h
  rw [owed, owed, hp, hk, hi, hw, hm]

/-- Under the two invariants the byte shown is the byte of the closed form, the checksum's too. -/
theorem frameBytes_getElem?_idx {s : State} (hp : s.phase = .emit) (hi : s.InFrame) (hs : s.Summed) :
    (frameBytes s.kind s.pw s.mb)[s.idx.toNat]? = some (frameByte s) := by
  have hlt := hi hp
  by_cases hlast : s.idx.toNat = frameLength s.kind - 1
  · have hacc : s.acc = checksum (summedBytes s.kind s.pw s.mb) := by rw [hs hp, hlast, drop_take_frameBytes]
    rw [frameBytes, ← hacc, getElem?_frame_with_acc s hlt, frameByte]
  · exact frameByteAt_eq_frameBytes s _ (by omega)

/-- A transfer takes the byte shown off what is owed. -/
theorem owed_eq_cons_owed_transfer {s : State} (hp : s.phase = .emit) (hi : s.InFrame) (hs : s.Summed) :
    owed s = frameByte s :: owed (transfer s) := by
  obtain ⟨hlt, hbyte⟩ := List.getElem?_eq_some_iff.1 (frameBytes_getElem?_idx hp hi hs)
  rw [owed_of_emit hp, List.drop_eq_getElem_cons hlt, hbyte]
  rw [length_frameBytes] at hlt
  congr 1
  obtain ⟨-, hkind, hpw, hmb, -, -, -, -, hphase⟩ := transfer_spec s
  by_cases hlast : s.idx.toNat = frameLength s.kind - 1
  · rw [owed_of_idle ((transfer_phase_eq_idle hp).2 hlast)]
    exact List.drop_eq_nil_of_le (by rw [length_frameBytes]; omega)
  · rw [if_neg hlast] at hphase
    rw [owed_of_emit (hphase.trans hp), hkind, hpw, hmb, transfer_idx_toNat (by omega)]

/-- An acceptance owes the whole frame of its command. -/
theorem owed_of_exec {i : Instr} {s t : State} (h : exec i s = .next t) : owed t = commandFrame i := by
  obtain ⟨u, hu, hp, -, hidx, -, -, -, -, -, -, hf⟩ := exec_next i s
  cases hu.symm.trans h
  rw [owed_of_emit hp, hidx, hf]
  rfl

/-- In EMIT, inside the frame, at least one byte is owed. -/
theorem owed_ne_nil {s : State} (hp : s.phase = .emit) (hi : s.InFrame) : owed s ≠ [] := by
  rw [owed_of_emit hp, ne_eq, List.drop_eq_nil_iff, length_frameBytes, Nat.not_le]
  exact hi hp

/-- What a step does to the bytes sent and owed, by its event. -/
theorem step_sent_owed {s t : State} (hi : s.InFrame) (hs : s.Summed) (h : step s = .next t) :
    (∀ i, eventOf s = .accept i → owed s = [] ∧ owed t = commandFrame i ∧ t.sent = s.sent)
      ∧ (eventOf s = .transfer → ∃ b, owed s = b :: owed t ∧ outData s = some b ∧ t.sent = s.sent ++ [b])
      ∧ (eventOf s = .idle → owed t = owed s ∧ t.sent = s.sent)
      ∧ (eventOf s = .reset → owed t = [] ∧ t.sent = s.sent) := by
  refine ⟨fun i he => ?_, fun he => ?_, fun he => ?_, fun he => ?_⟩
  · have ht := (step_accept he).symm.trans h
    obtain ⟨u, hu, -, -, -, -, -, -, hsent, -⟩ := exec_next i s.consume
    cases hu.symm.trans ht
    exact ⟨owed_of_idle (eventOf_eq_accept.1 he).2.1, owed_of_exec ht, hsent.trans s.consume_sent⟩
  · cases (step_transfer he).symm.trans h
    have hp := (eventOf_eq_transfer.1 he).2.1
    obtain ⟨hblock, hsent⟩ := transfer_consume_spec s
    exact ⟨frameByte s, by rw [owed_congr hblock, owed_eq_cons_owed_transfer hp hi hs],
      outData_of_valid (outValid_iff.2 hp), hsent⟩
  · cases (step_idle he).symm.trans h
    exact ⟨owed_congr s.consume_sameBlock, s.consume_sent⟩
  · cases (step_reset he).symm.trans h
    exact ⟨owed_of_idle rfl, s.consume_sent⟩

/-- Settles O42: every step has a next state, and R36 has IDX inside the frame. -/
theorem stepRefinesFrameQueue : Obligations.StepRefinesFrameQueue := by
  intro s hsound hs
  obtain ⟨-, hi, -⟩ := State.sound_iff.1 hsound
  obtain ⟨t, ht⟩ := step_next s
  exact ⟨t, ht, step_sent_owed hi hs ht⟩

/-! ### The output of a run (42_frame_wrapper.md R118) -/

/-- The state after `cmds` were accepted, with no reset, from an IDLE state that had sent `out`: the bytes sent and owed
are the frames of `cmds`, and what is owed is the end of the last one. -/
structure State.Delivers (out : List Byte) (cmds : List Instr) (s : State) : Prop where
  inFrame : s.InFrame
  summed : s.Summed
  sent_owed : s.sent ++ owed s = out ++ cmds.flatMap commandFrame
  owed_suffix : owed s ≠ [] → ∃ i, cmds.getLast? = some i ∧ owed s <:+ commandFrame i

theorem State.Delivers.of_idle {s : State} (hp : s.phase = .idle) : s.Delivers s.sent [] where
  inFrame h := nomatch hp.symm.trans h
  summed h := nomatch hp.symm.trans h
  sent_owed := by rw [owed_of_idle hp, List.flatMap_nil]
  owed_suffix h := absurd (owed_of_idle hp) h

theorem State.Delivers.after_step {out : List Byte} {cmds : List Instr} {s t : State} (h : s.Delivers out cmds)
    (hr : eventOf s ≠ .reset) (ht : step s = .next t) : t.Delivers out (cmds ++ (eventOf s).command?.toList) := by
  obtain ⟨hi, hs, hso, hsuf⟩ := h
  obtain ⟨hi', hs'⟩ := step_keeps_inFrame_summed hi hs ht
  obtain ⟨haccept, htransfer, hidle, -⟩ := step_sent_owed hi hs ht
  cases he : eventOf s with
  | reset => exact absurd he hr
  | accept i =>
    obtain ⟨hnil, howed, hsent⟩ := haccept i he
    rw [hnil, List.append_nil] at hso
    exact ⟨hi', hs', by rw [howed, hsent, hso]; simp [Event.command?],
      fun _ => ⟨i, List.getLast?_concat, by rw [howed]⟩⟩
  | transfer =>
    obtain ⟨b, hcons, -, hsent⟩ := htransfer he
    obtain ⟨i, hlast, hsuf⟩ := hsuf (by simp [hcons])
    rw [hcons] at hso hsuf
    simp only [Event.command?, Option.toList_none, List.append_nil]
    exact ⟨hi', hs', by rw [hsent, ← hso, List.append_assoc]; rfl,
      fun _ => ⟨i, hlast, (List.suffix_cons ..).trans hsuf⟩⟩
  | idle =>
    obtain ⟨howed, hsent⟩ := hidle he
    simp only [Event.command?, Option.toList_none, List.append_nil]
    exact ⟨hi', hs', by rw [howed, hsent, hso], by rwa [howed]⟩

/-- A run with no reset delivers the frames of the commands it accepts after those before it. -/
theorem State.Delivers.after_run {out : List Byte} {k : Nat} {cmds : List Instr} {s : State} (h : s.Delivers out cmds)
    (hr : NoReset k s) : ∃ t, runFor k s = .next t ∧ t.Delivers out (cmds ++ acceptedIn k s) := by
  induction k generalizing s cmds with
  | zero => exact ⟨s, rfl, by simpa [acceptedIn, eventsIn] using h⟩
  | succ k ih =>
    obtain ⟨t, ht⟩ := step_next s
    obtain ⟨hnot, hr⟩ := (noReset_succ ht).1 hr
    rw [runFor_succ ht, acceptedIn_succ ht, ← List.append_assoc]
    exact ih (h.after_step hnot ht) hr

/-- A step sends one byte if it transfers, else none. -/
theorem step_length_sent {s t : State} (h : step s = .next t) :
    t.sent.length = s.sent.length + if eventOf s = .transfer then 1 else 0 := by
  cases he : eventOf s with
  | reset => cases (step_reset he).symm.trans h; simp
  | accept i =>
    obtain ⟨u, hu, -, -, -, -, -, -, hsent, -⟩ := exec_next i s.consume
    cases hu.symm.trans ((step_accept he).symm.trans h)
    simp [hsent]
  | transfer => cases (step_transfer he).symm.trans h; simp [(transfer_consume_spec s).2]
  | idle => cases (step_idle he).symm.trans h; simp

/-- One byte is sent per transfer, in every run. -/
theorem runFor_length_sent {k : Nat} {s t : State} (h : runFor k s = .next t) :
    t.sent.length = s.sent.length + transfersIn k s := by
  induction k generalizing s with
  | zero => cases h; rfl
  | succ k ih =>
    obtain ⟨u, hu⟩ := step_next s
    rw [runFor_succ hu] at h
    rw [ih h, step_length_sent hu, transfersIn_succ hu]
    omega

/-- Settles O41: a run from IDLE delivers the frames of the accepted commands, and in IDLE nothing is owed. -/
theorem outputIsConcatenationOfFrames : Obligations.OutputIsConcatenationOfFrames := by
  intro k s hp hr
  obtain ⟨t, ht, hi, -, hso, hsuf⟩ := (State.Delivers.of_idle hp).after_run hr
  rw [List.nil_append] at hso hsuf
  refine ⟨t, ht, hso, fun hidle => ?_, fun hemit => hsuf (owed_ne_nil hemit hi), runFor_length_sent ht,
    length_commandFrame⟩
  rw [← hso, owed_of_idle hidle, List.append_nil]

end Sys2Proof.Machine

/-! The obligations of 43_race_info_commands.md: what the acceptances of ENC_RI (R130) and ENC_RI_SENTINEL (R131) write,
and the frames that go out after them. -/

namespace Sys2Proof.Machine

/-! ### The acceptance of a race-info command (43_race_info_commands.md R130, R131) -/

/-- All the writes of a race-info acceptance. -/
theorem beginFrame_ri_setPw (s : State) (w : Word) :
    beginFrame .ri (s.setPw w) = { s with phase := .emit, kind := .ri, idx := 0#4, acc := 0x00#8, pw := w } := rfl

/-- Settles O12: the word written is PackRI of the operands, whose number is the sum of its fields, or the sentinel. -/
theorem raceInfoAcceptanceEffect : Obligations.RaceInfoAcceptanceEffect := by
  refine ⟨fun pos lap secs hunds started chn s => ⟨packRI pos lap secs hunds started chn, ?_, ?_⟩, fun s => ?_⟩
  · rw [exec_encRi, beginFrame_ri_setPw]
  · exact (packRIIsShiftedSumOfFields pos lap secs hunds started chn).1
  · rw [exec_encRiSentinel, beginFrame_ri_setPw, sentinelWord]

/-! ### The frame after an acceptance (30_encoding.md R66) -/

/-- The bytes sent after an acceptance are the accepted command's frame, cut to the number of transfers: what the run
delivers begins with that frame, and one byte is sent per transfer. -/
theorem runFor_sent_of_accept {k : Nat} {i : Instr} {s t : State} (he : eventOf s = .accept i) (ht : step s = .next t)
    (hr : NoReset k t) (hn : transfersIn k t ≤ frameLength (commandKind i)) :
    ∃ u, runFor k t = .next u ∧ u.sent = s.sent ++ (commandFrame i).take (transfersIn k t) := by
  have hidle : s.phase = .idle := (eventOf_eq_accept.1 he).2.1
  have hdel : t.Delivers s.sent [i] := by
    simpa [he, Event.command?] using (State.Delivers.of_idle hidle).after_step (by simp [he]) ht
  obtain ⟨u, hu, -, -, hso, -⟩ := hdel.after_run hr
  have hlen : u.sent.length = s.sent.length + transfersIn k t := by
    rw [runFor_length_sent hu, step_length_sent ht, he]
    rfl
  refine ⟨u, hu, ?_⟩
  calc u.sent = (u.sent ++ owed u).take (s.sent.length + transfersIn k t) := by rw [← hlen, List.take_left]
    _ = s.sent ++ (commandFrame i ++ (acceptedIn k t).flatMap commandFrame).take (transfersIn k t) := by
      rw [hso, List.take_length_add_append, List.singleton_append, List.flatMap_cons]
    _ = s.sent ++ (commandFrame i).take (transfersIn k t) := by
      rw [List.take_append_of_le_length (hn.trans_eq (length_commandFrame i).symm)]

/-- The checksum of a race-info frame, as one sum over its bytes in order (41_checksum_accumulator.md R105). -/
theorem checksum_summedBytes_ri (w : Word) (m : MsgPayload) :
    checksum (summedBytes .ri w m) = BitVec.ofNat 8 (0x5A + (w.extractLsb' 0 8).toNat + (w.extractLsb' 8 8).toNat
      + (w.extractLsb' 16 8).toNat + (w.extractLsb' 24 8).toNat + 0xFE) := by
  rw [checksum, sum_summedBytes]
  simp [payload, pwBytes, terminator, Nat.add_assoc]

/-- A race-info frame, byte by byte (30_encoding.md R66). -/
theorem frameBytes_ri_eq (w : Word) (m : MsgPayload) :
    frameBytes .ri w m = [0xFC#8, 0x5A#8, w.extractLsb' 0 8, w.extractLsb' 8 8, w.extractLsb' 16 8, w.extractLsb' 24 8,
      0xFE#8, BitVec.ofNat 8 (0x5A + (w.extractLsb' 0 8).toNat + (w.extractLsb' 8 8).toNat
        + (w.extractLsb' 16 8).toNat + (w.extractLsb' 24 8).toNat + 0xFE)] := by
  rw [frameBytes, checksum_summedBytes_ri]
  rfl

/-- The sentinel frame, its checksum 0x54 included (43_race_info_commands.md R131). -/
theorem commandFrame_encRiSentinel :
    commandFrame .encRiSentinel = [0xFC#8, 0x5A#8, 0xFF#8, 0xFF#8, 0xFF#8, 0xFF#8, 0xFE#8, 0x54#8] := by decide

/-- Settles O16: the offer is accepted as ENC_RI, and the run after it sends that command's frame. -/
theorem encRiProducesItsFrame : Obligations.EncRiProducesItsFrame := by
  intro s hp hr hv hop
  have he := eventOf_eq_accept.2 ⟨hr, hp, hv, (decode_of_op_00 hop).symm⟩
  have ht := (step_accept he).trans (exec_encRi ..)
  refine ⟨_, ht, rfl, s.consume_mb, rfl, packRI_top_zero .., fun k hreset hn => ?_⟩
  obtain ⟨u, hu, hsent⟩ := runFor_sent_of_accept he ht hreset hn
  rw [commandFrame, frameBytes_ri_eq] at hsent
  exact ⟨u, hu, hsent⟩

/-- Settles O17: the offer is accepted as ENC_RI_SENTINEL, and the run after it sends the one sentinel frame. -/
theorem encRiSentinelProducesItsFrame : Obligations.EncRiSentinelProducesItsFrame := by
  intro s hp hr hv hop
  have he := eventOf_eq_accept.2 ⟨hr, hp, hv, (decode_of_op_01 hop).symm⟩
  have ht := (step_accept he).trans (exec_encRiSentinel _)
  refine ⟨_, ht, rfl, rfl, s.consume_mb, packRI_ne_sentinelWord, fun k hreset hn => ?_⟩
  rw [← commandFrame_encRiSentinel]
  exact runFor_sent_of_accept he ht hreset hn

end Sys2Proof.Machine

/-! The obligations of 44_race_msg_commands.md: what the acceptances of ENC_MSG (R140) and ENC_MSG_BCAST (R141) write,
and the frames that go out after them. -/

namespace Sys2Proof.Machine

/-! ### The acceptance of a race-message command (44_race_msg_commands.md R140, R141) -/

/-- All the writes of a race-message acceptance. -/
theorem beginFrame_msg_setMb (s : State) (m : MsgPayload) :
    beginFrame .msg (s.setMb m) = { s with phase := .emit, kind := .msg, idx := 0#4, acc := 0x00#8, mb := m } := rfl

/-- The message field of a packed payload: the copied lanes, then MB[7] = 0x00. -/
theorem packMB_text (s c : Operand) (x : Text) :
    [(packMB s c x).b1, (packMB s c x).b2, (packMB s c x).b3, (packMB s c x).b4, (packMB s c x).b5, (packMB s c x).b6]
        = lanes (copyText x) ∧ (packMB s c x).b7 = 0x00#8 := ⟨rfl, rfl⟩

/-- Settles O13: the payload written is PackMB of the operands, with BCAST_CHN for the broadcast. -/
theorem raceMessageAcceptanceEffect : Obligations.RaceMessageAcceptanceEffect := by
  refine ⟨fun seq chn x s => ⟨packMB seq chn x, ?_, ?_, packMB_text seq chn x⟩,
    fun seq x s => ⟨packMB seq bcastChn x, ?_, ?_, packMB_text seq bcastChn x⟩⟩
  · rw [exec_encMsg, beginFrame_msg_setMb]
  · rw [packMB_b0]
    exact toNat_packFlags seq chn
  · rw [exec_encMsgBcast, beginFrame_msg_setMb]
  · rw [packMB_b0]
    exact toNat_packFlags seq bcastChn

/-! ### The frame of a race-message command (30_encoding.md R68) -/

/-- The checksum of a race-message frame, as one sum over its bytes in order (41_checksum_accumulator.md R105). -/
theorem checksum_summedBytes_packMB (w : Word) (s c : Operand) (x : Text) :
    checksum (summedBytes .msg w (packMB s c x)) = BitVec.ofNat 8 (0x5B + (packFlags s c).toNat
      + ((lanes (copyText x)).map BitVec.toNat).sum + 0x00 + 0xFE) := by
  rw [checksum, sum_summedBytes, payload, mbBytes_packMB]
  simp [terminator, Nat.add_assoc]

/-- A race-message frame, byte by byte: the flags byte, the copied lanes and MB[7] between the fixed bytes. -/
theorem frameBytes_packMB (w : Word) (s c : Operand) (x : Text) :
    frameBytes .msg w (packMB s c x) = [0xFC#8, 0x5B#8, packFlags s c] ++ lanes (copyText x) ++ [0x00#8, 0xFE#8,
      BitVec.ofNat 8 (0x5B + (packFlags s c).toNat + ((lanes (copyText x)).map BitVec.toNat).sum + 0x00 + 0xFE)] := by
  rw [frameBytes, checksum_summedBytes_packMB]
  rfl

/-- On the broadcast channel the flags byte is seq_id with the four channel bits set (44_race_msg_commands.md R141). -/
theorem packFlags_bcastChn (s : Operand) : packFlags s bcastChn = (s.extractLsb' 0 3).setWidth 8 ||| 0x78#8 := by
  have hchn : (field 4 bcastChn).setWidth 8 <<< 3 = 0x78#8 := by decide
  rw [packFlags, hchn, field]

/-- Settles O18: the offer is accepted as ENC_MSG, and the run after it sends that command's frame. -/
theorem encMsgProducesItsFrame : Obligations.EncMsgProducesItsFrame := by
  intro s hp hr hv hop
  have he := eventOf_eq_accept.2 ⟨hr, hp, hv, (decode_of_op_10 hop).symm⟩
  have ht := (step_accept he).trans (exec_encMsg ..)
  refine ⟨_, _, ht, rfl, s.consume_pw, rfl, toNat_packFlags .., fun k hreset hn => ?_⟩
  rw [← frameBytes_packMB State.reset.pw]
  exact runFor_sent_of_accept he ht hreset hn

/-- Settles O19: the offer is accepted as ENC_MSG_BCAST, which does not take A1, and the run after it sends that
command's frame. -/
theorem encMsgBcastProducesItsFrame : Obligations.EncMsgBcastProducesItsFrame := by
  intro s hp hr hv hop
  have he := eventOf_eq_accept.2 ⟨hr, hp, hv, (decode_of_op_11 hop).symm⟩
  have ht := (step_accept he).trans (exec_encMsgBcast ..)
  refine ⟨_, _, ht, rfl, s.consume_pw, rfl, packFlags_bcastChn _, fun k hreset hn => ?_⟩
  rw [← frameBytes_packMB State.reset.pw]
  exact runFor_sent_of_accept he ht hreset hn

end Sys2Proof.Machine

/-! The obligation of 60_exceptions.md: the block has no fault and no refusal (R151). -/

namespace Sys2Proof.Machine

/-- Settles O32, by induction on the number of steps: each step answers a next state, and the rest of the run starts
from it. -/
theorem noRunStops : Obligations.NoRunStops := by
  intro k
  induction k with
  | zero => exact fun s => ⟨s, runFor_zero s⟩
  | succ k ih =>
    intro s
    obtain ⟨t, ht⟩ := step_next s
    rw [runFor_succ ht]
    exact ih t

end Sys2Proof.Machine

/-! The obligations of 70_reset_and_hazards.md: reset (R170 to R172, R174), the command hazard (R175), and what a frame
takes in steps and in transfers (R177, R179). -/

namespace Sys2Proof.Machine

/-! ### Reset steps (70_reset_and_hazards.md R170, R174) -/

theorem eventsIn_all_reset_of_inputs {k : Nat} {s : State} (h : ∀ inp ∈ inputsIn k s, inp.rst = true) :
    ∀ e ∈ eventsIn k s, e = .reset := by
  induction k generalizing s with
  | zero => exact nofun
  | succ k ih =>
    obtain ⟨t, ht⟩ := step_next s
    rw [inputsIn_succ ht, List.forall_mem_cons] at h
    rw [eventsIn_succ ht, List.forall_mem_cons]
    exact ⟨eventOf_eq_reset.2 h.1, ih h.2⟩

/-- On a block at its reset values more reset steps add nothing. -/
theorem runFor_of_all_reset {k : Nat} {s : State} (hs : s.SameBlock State.reset)
    (h : ∀ e ∈ eventsIn k s, e = .reset) :
    ∃ t, runFor k s = .next t ∧ t.SameBlock State.reset ∧ t.sent = s.sent := by
  induction k generalizing s with
  | zero => exact ⟨s, rfl, hs, rfl⟩
  | succ k ih =>
    obtain ⟨t, ht⟩ := step_next s
    rw [eventsIn_succ ht, List.forall_mem_cons] at h
    cases (step_reset h.1).symm.trans ht
    obtain ⟨u, hu, hblock, hsent⟩ := ih (resetBlock_sameBlock _) h.2
    exact ⟨u, (runFor_succ ht).trans hu, hblock, hsent.trans s.consume_sent⟩

/-- Settles O34: all the events are resets, so none is an acceptance or a transfer, and the values are those of R38. -/
theorem resetStepSetsEveryElement : Obligations.ResetStepSetsEveryElement := by
  intro k s h
  have hall := eventsIn_all_reset_of_inputs h
  have haccepted : acceptedIn (k + 1) s = [] := List.filterMap_eq_nil_iff.2 fun e he => by rw [hall e he]; rfl
  have htransfers : transfersIn (k + 1) s = 0 := List.count_eq_zero.2 fun he => nomatch hall _ he
  have hstep := step_reset (eventOf_eq_reset.2 (h s.inputs List.mem_cons_self))
  rw [eventsIn_succ hstep, List.forall_mem_cons] at hall
  obtain ⟨t, ht, ⟨hp, hk, hi, hw, hm, ha⟩, hsent⟩ := runFor_of_all_reset (resetBlock_sameBlock _) hall.2
  have hmb : mbBytes t.mb = List.replicate 8 0x00#8 := by
    obtain ⟨-, -, -, -, hmb, -⟩ := resetStateValues
    rw [hm, hmb]
  exact ⟨t, (runFor_succ hstep).trans ht, hp, hk, hi, hw, hmb, ha, hsent.trans s.consume_sent, haccepted, htransfers⟩

/-- Settles O36: the reset leaves the block IDLE, so the next step accepts an offer (42_frame_wrapper.md R115). -/
theorem blockAcceptsRightAfterReset : Obligations.BlockAcceptsRightAfterReset := by
  intro s hr
  refine ⟨_, step_reset (eventOf_eq_reset.2 hr), rfl, rfl, s.consume_sent, fun hr' hv => ?_⟩
  obtain ⟨u, hu, hexec, -, -, -, hp, -⟩ := acceptanceStepStartsFrame _ rfl hr' hv
  exact ⟨u, hu, hexec, outValid_iff.2 hp⟩

/-! ### The state right after an acceptance (42_frame_wrapper.md R115) -/

theorem State.Fresh.inFrame {s : State} (h : s.Fresh) : s.InFrame := by
  intro _
  rw [h.2.1]
  exact frameLength_pos s.kind

/-- At offset 0 the cleared accumulator is the sum of no byte. -/
theorem State.Fresh.summed {s : State} (h : s.Fresh) : s.Summed := by
  obtain ⟨-, hidx, hacc⟩ := h
  intro _
  rw [hacc, hidx, checksum_drop_take_of_le_one _ (by decide)]

/-- An accepting step sends nothing and owes the whole frame of its command. -/
theorem step_of_accept {s : State} {i : Instr} (he : eventOf s = .accept i) :
    ∃ t, step s = .next t ∧ t.Fresh ∧ t.kind = commandKind i ∧ t.sent = s.sent ∧ owed t = commandFrame i := by
  obtain ⟨t, ht, hp, hk, hidx, hacc, -, -, hsent, -⟩ := exec_next i s.consume
  exact ⟨t, (step_accept he).trans ht, ⟨hp, hidx, hacc⟩, hk, hsent.trans s.consume_sent, owed_of_exec ht⟩

/-- While a frame goes out nothing is accepted (42_frame_wrapper.md R113). -/
theorem eventOf_ne_accept_of_emit {s : State} (hp : s.phase = .emit) (i : Instr) : eventOf s ≠ .accept i :=
  fun he => nomatch hp.symm.trans (eventOf_eq_accept.1 he).2.1

/-- Settles O46: the first step accepts, and the second is in EMIT. -/
theorem twoOffersInARowIssueOneCommand : Obligations.TwoOffersInARowIssueOneCommand := by
  intro s hp h
  obtain ⟨hr, hv⟩ := h s.inputs List.mem_cons_self
  have he := eventOf_eq_accept.2 ⟨hr, hp, hv, rfl⟩
  obtain ⟨t, ht, ⟨hemit, -⟩, -⟩ := step_of_accept he
  obtain ⟨u, hu⟩ := step_next t
  have hnone : acceptedIn 1 t = [] := (acceptedIn_succ_eq_nil hu).2 ⟨eventOf_ne_accept_of_emit hemit, rfl⟩
  rw [acceptedIn_succ ht, he, hnone]
  rfl

/-! ### A reset during a frame (70_reset_and_hazards.md R171) -/

/-- Until its last transfer a frame goes on: PHASE stays EMIT, and IDX counts the transfers. -/
theorem runFor_of_transfers_lt {k : Nat} {s : State} (hp : s.phase = .emit) (hr : NoReset k s)
    (hn : s.idx.toNat + transfersIn k s < frameLength s.kind) :
    ∃ t, runFor k s = .next t ∧ t.phase = .emit ∧ t.idx.toNat = s.idx.toNat + transfersIn k s := by
  induction k generalizing s with
  | zero => exact ⟨s, rfl, hp, rfl⟩
  | succ k ih =>
    obtain ⟨t, ht⟩ := step_next s
    obtain ⟨hnotReset, hr⟩ := (noReset_succ ht).1 hr
    rw [transfersIn_succ ht] at hn ⊢
    rw [runFor_succ ht]
    cases he : eventOf s with
    | reset => exact absurd he hnotReset
    | accept i => exact absurd he (eventOf_ne_accept_of_emit hp i)
    | transfer =>
      rw [if_pos he] at hn
      cases (step_transfer he).symm.trans ht
      obtain ⟨⟨hphase, hkind, hidx, -⟩, -⟩ := transfer_consume_spec s
      obtain ⟨-, hkind', -, -, -, -, -, -, hphase'⟩ := transfer_spec s
      have hidx' : (transfer s.consume).idx.toNat = s.idx.toNat + 1 := by
        rw [hidx, transfer_idx_toNat (by omega)]
      rw [if_neg (by omega)] at hphase'
      obtain ⟨u, hu, hemit, hcount⟩ := ih (hphase.trans (hphase'.trans hp)) hr (by rw [hidx', hkind, hkind']; omega)
      exact ⟨u, hu, hemit, by rw [hcount, hidx', if_pos rfl]; omega⟩
    | idle =>
      cases (step_idle he).symm.trans ht
      simpa [he] using ih (s.consume_phase.trans hp) hr (by simpa [he] using hn)

/-- In IDLE, until an acceptance, the block stays IDLE and sends nothing, through idle and reset steps alike. -/
theorem runFor_of_idle_of_no_accept {k : Nat} {s : State} (hp : s.phase = .idle) (hna : acceptedIn k s = []) :
    ∃ t, runFor k s = .next t ∧ t.phase = .idle ∧ t.sent = s.sent := by
  induction k generalizing s with
  | zero => exact ⟨s, rfl, hp, rfl⟩
  | succ k ih =>
    obtain ⟨t, ht⟩ := step_next s
    obtain ⟨hno, hna⟩ := (acceptedIn_succ_eq_nil ht).1 hna
    rw [runFor_succ ht]
    have hstep : t.phase = .idle ∧ t.sent = s.sent := by
      cases he : eventOf s with
      | reset => cases (step_reset he).symm.trans ht; exact ⟨rfl, s.consume_sent⟩
      | accept i => exact absurd he (hno i)
      | transfer => exact nomatch hp.symm.trans (eventOf_eq_transfer.1 he).2.1
      | idle => cases (step_idle he).symm.trans ht; exact ⟨s.consume_phase.trans hp, s.consume_sent⟩
    rw [← hstep.2]
    exact ih hstep.1 hna

/-- Settles O35: IDX counts the bytes sent of the frame, and the reset leaves the block IDLE with nothing owed. -/
theorem resetAbandonsFrame : Obligations.ResetAbandonsFrame := by
  intro s hp hr hv
  have he := eventOf_eq_accept.2 ⟨hr, hp, hv, rfl⟩
  obtain ⟨t, ht, ⟨hemit, hidx, -⟩, hkind, -⟩ := step_of_accept he
  refine ⟨t, ht, fun k hreset hn => ?_⟩
  have hzero : t.idx.toNat + transfersIn k t = transfersIn k t := by rw [hidx]; exact Nat.zero_add _
  obtain ⟨u, hu, hemit', hcount⟩ := runFor_of_transfers_lt hemit hreset (by rwa [hzero, hkind])
  obtain ⟨u', hu', hsent⟩ := runFor_sent_of_accept he ht hreset hn.le
  cases hu.symm.trans hu'
  rw [hzero] at hcount
  refine ⟨u, hu, hemit', hcount, by rw [hsent, hcount], fun hrst => ?_⟩
  exact ⟨_, step_reset (eventOf_eq_reset.2 hrst), u.consume_sent, resetBlock_sameBlock _,
    fun m hna => runFor_of_idle_of_no_accept rfl hna⟩

/-! ### Bytes owed, transfers and steps (70_reset_and_hazards.md R177, R179) -/

/-- In EMIT, inside the frame, something is owed; in IDLE nothing is. -/
theorem owed_eq_nil_iff {s : State} (hi : s.InFrame) : owed s = [] ↔ s.phase = .idle := by
  refine ⟨fun h => ?_, owed_of_idle⟩
  cases hp : s.phase with
  | idle => rfl
  | emit => exact absurd h (owed_ne_nil hp hi)

/-- A step without reset: what is owed grows by the frame accepted and shrinks by the byte transferred. -/
theorem step_length_owed {s t : State} (hi : s.InFrame) (hs : s.Summed) (hr : eventOf s ≠ .reset)
    (h : step s = .next t) :
    (owed t).length + (if eventOf s = .transfer then 1 else 0)
      = (owed s).length + ((eventOf s).command?.toList.map fun i => frameLength (commandKind i)).sum := by
  obtain ⟨haccept, htransfer, hidle, -⟩ := step_sent_owed hi hs h
  cases he : eventOf s with
  | reset => exact absurd he hr
  | accept i =>
    obtain ⟨hnil, howed, -⟩ := haccept i he
    simp [hnil, howed, length_commandFrame, Event.command?]
  | transfer =>
    obtain ⟨b, hcons, -⟩ := htransfer he
    simp [hcons, Event.command?]
  | idle => simp [(hidle he).1, Event.command?]

/-- Over a run without reset: the bytes transferred are those owed at the start and those of the frames accepted, but
for those owed at the end. -/
theorem runFor_length_owed {k : Nat} {s : State} (hi : s.InFrame) (hs : s.Summed) (hr : NoReset k s) :
    ∃ t, runFor k s = .next t ∧ t.InFrame ∧ (owed t).length + transfersIn k s
      = (owed s).length + ((acceptedIn k s).map fun i => frameLength (commandKind i)).sum := by
  induction k generalizing s with
  | zero => exact ⟨s, rfl, hi, rfl⟩
  | succ k ih =>
    obtain ⟨t, ht⟩ := step_next s
    obtain ⟨hnot, hr⟩ := (noReset_succ ht).1 hr
    obtain ⟨hi', hs'⟩ := step_keeps_inFrame_summed hi hs ht
    obtain ⟨u, hu, hiu, hcount⟩ := ih hi' hs' hr
    have hstep := step_length_owed hi hs hnot ht
    rw [runFor_succ ht, transfersIn_succ ht, acceptedIn_succ ht, List.map_append, List.sum_append]
    exact ⟨u, hu, hiu, by omega⟩

/-- Settles O43: L bytes are owed at first, each transfer takes one off, and the block is IDLE when none is left. -/
theorem frameEndsAfterExactlyItsLength : Obligations.FrameEndsAfterExactlyItsLength := by
  intro k s hfresh hr hna
  obtain ⟨t, ht, hi, hcount⟩ := runFor_length_owed hfresh.inFrame hfresh.summed hr
  obtain ⟨hp, hidx, -⟩ := hfresh
  have howed : (owed s).length = frameLength s.kind := by
    rw [owed_of_emit hp, hidx, ← length_frameBytes s.kind s.pw s.mb]; rfl
  rw [howed, hna, List.map_nil, List.sum_nil, Nat.add_zero] at hcount
  refine ⟨t, ht, by omega, ?_⟩
  rw [← owed_eq_nil_iff hi, ← List.length_eq_zero_iff]
  omega

/-- An event accepts a command or transfers a byte, not both. -/
theorem Event.length_command?_add_le (e : Event) :
    e.command?.toList.length + (if e = .transfer then 1 else 0) ≤ 1 := by
  cases e <;> simp [Event.command?]

/-- So a run has a step for each command accepted and another for each byte transferred. -/
theorem length_acceptedIn_add_transfersIn_le (k : Nat) (s : State) :
    (acceptedIn k s).length + transfersIn k s ≤ k := by
  induction k generalizing s with
  | zero => exact Nat.le_refl 0
  | succ k ih =>
    obtain ⟨t, ht⟩ := step_next s
    have hfirst := (eventOf s).length_command?_add_le
    have hrest := ih t
    rw [acceptedIn_succ ht, transfersIn_succ ht, List.length_append]
    omega

/-- From IDLE to IDLE a run transfers whole frames. -/
theorem transfersIn_of_idle_to_idle {k : Nat} {s t : State} (hp : s.phase = .idle) (hr : NoReset k s)
    (h : runFor k s = .next t) (hp' : t.phase = .idle) :
    transfersIn k s = ((acceptedIn k s).map fun i => frameLength (commandKind i)).sum := by
  obtain ⟨hi, hs, -⟩ := State.Delivers.of_idle hp
  obtain ⟨u, hu, -, hcount⟩ := runFor_length_owed hi hs hr
  cases hu.symm.trans h
  simpa [owed_of_idle hp, owed_of_idle hp'] using hcount

/-! ### A sink that is ready often enough (70_reset_and_hazards.md R179, R180) -/

theorem runFor_add {j : Nat} (m : Nat) {s t : State} (h : runFor j s = .next t) :
    runFor (j + m) s = runFor m t := by
  induction j generalizing s with
  | zero => cases h; rw [Nat.zero_add]
  | succ j ih =>
    obtain ⟨u, hu⟩ := step_next s
    rw [runFor_succ hu] at h
    rw [Nat.add_right_comm, runFor_succ hu, ih h]

/-- No step takes a byte back from the sink. -/
theorem step_sent_prefix {s t : State} (h : step s = .next t) : s.sent <+: t.sent := by
  cases he : eventOf s with
  | reset => cases (step_reset he).symm.trans h; rw [resetBlock_sent, s.consume_sent]
  | accept i =>
    obtain ⟨u, hu, -, -, hsent, -⟩ := step_of_accept he
    cases hu.symm.trans h
    rw [hsent]
  | transfer => cases (step_transfer he).symm.trans h; rw [(transfer_consume_spec s).2]; exact List.prefix_append ..
  | idle => cases (step_idle he).symm.trans h; rw [s.consume_sent]

theorem runFor_sent_prefix {k : Nat} {s t : State} (h : runFor k s = .next t) : s.sent <+: t.sent :=
  runFor_keeps (P := fun u => s.sent <+: u.sent) (fun _ _ hu hstep => hu.trans (step_sent_prefix hstep)) k
    List.prefix_rfl h

/-- A sink that is ready in as many steps as bytes are owed has received them all by then, and the block was IDLE. -/
theorem exists_idle_of_ready {k : Nat} {s : State} (hi : s.InFrame) (hs : s.Summed)
    (hr : ∀ inp ∈ inputsIn k s, inp.rst = false) (hn : (owed s).length ≤ (inputsIn k s).countP (·.outReady)) :
    ∃ j ≤ k, ∃ v, runFor j s = .next v ∧ v.phase = .idle ∧ v.sent = s.sent ++ owed s := by
  induction k generalizing s with
  | zero =>
    have hnil : owed s = [] := List.length_eq_zero_iff.1 (Nat.le_zero.1 hn)
    exact ⟨0, Nat.le_refl 0, s, rfl, (owed_eq_nil_iff hi).1 hnil, by rw [hnil, List.append_nil]⟩
  | succ k ih =>
    obtain ⟨t, ht⟩ := step_next s
    obtain ⟨hi', hs'⟩ := step_keeps_inFrame_summed hi hs ht
    obtain ⟨-, htransfer, hidle, -⟩ := step_sent_owed hi hs ht
    rw [inputsIn_succ ht, List.forall_mem_cons] at hr
    rw [inputsIn_succ ht, List.countP_cons] at hn
    cases hp : s.phase with
    | idle => exact ⟨0, Nat.zero_le _, s, rfl, hp, by rw [owed_of_idle hp, List.append_nil]⟩
    | emit =>
      have hstep : t.sent ++ owed t = s.sent ++ owed s
          ∧ (owed t).length ≤ (inputsIn k t).countP (·.outReady) := by
        cases ho : s.inputs.outReady with
        | true =>
          obtain ⟨b, hcons, -, hsent⟩ := htransfer (eventOf_eq_transfer.2 ⟨hr.1, hp, ho⟩)
          rw [hcons, ho] at hn
          exact ⟨by rw [hsent, hcons, List.append_assoc]; rfl, Nat.le_of_succ_le_succ hn⟩
        | false =>
          have he := eventOf_eq_idle.2 ⟨hr.1, fun h => (nomatch hp.symm.trans h), fun _ => ho⟩
          obtain ⟨howed, hsent⟩ := hidle he
          rw [ho] at hn
          exact ⟨by rw [howed, hsent], howed ▸ hn⟩
      obtain ⟨j, hj, v, hv, hphase, hsent⟩ := ih hi' hs' hr.2 hstep.2
      exact ⟨j + 1, Nat.succ_le_succ hj, v, (runFor_succ ht).trans hv, hphase, hsent.trans hstep.1⟩

/-- The same after an acceptance, where the accepted command's whole frame is owed. -/
theorem exists_frame_sent_of_ready {k : Nat} {i : Instr} {s t : State} (he : eventOf s = .accept i)
    (ht : step s = .next t) (hr : ∀ inp ∈ inputsIn k t, inp.rst = false)
    (hn : frameLength (commandKind i) ≤ (inputsIn k t).countP (·.outReady)) :
    ∃ j ≤ k, ∃ v, runFor j t = .next v ∧ v.phase = .idle ∧ v.sent = s.sent ++ commandFrame i := by
  obtain ⟨u, hu, hfresh, -, hsent, howed⟩ := step_of_accept he
  cases hu.symm.trans ht
  rw [← hsent, ← howed]
  exact exists_idle_of_ready hfresh.inFrame hfresh.summed hr (by rwa [howed, length_commandFrame])

/-- Settles O44: the frame has gone out at some step, and what follows only adds to the bytes sent. -/
theorem readySinkGetsWholeFrame : Obligations.ReadySinkGetsWholeFrame := by
  intro k s i he
  obtain ⟨t, ht⟩ := step_next s
  refine ⟨t, ht, fun hr hn => ?_⟩
  obtain ⟨j, hj, v, hv, hidle, hsent⟩ := exists_frame_sent_of_ready he ht hr hn
  obtain ⟨u, hu⟩ := noRunStops (k - j) v
  have hrun : runFor k t = .next u := by rw [← hu, ← runFor_add (k - j) hv, Nat.add_sub_of_le hj]
  exact ⟨u, hrun, hsent ▸ runFor_sent_prefix hu, j, hj, v, hv, hidle, hsent⟩

theorem length_inputsIn (k : Nat) (s : State) : (inputsIn k s).length = k := by
  induction k generalizing s with
  | zero => rfl
  | succ k ih => rw [inputsIn, List.length_cons, ih]

/-- With the sink ready in each of the L steps after an acceptance, each of them transfers a byte: the frame has gone
out by then, and in fewer steps it cannot. -/
theorem runFor_of_all_ready {i : Instr} {s t : State} (he : eventOf s = .accept i) (ht : step s = .next t)
    (h : ∀ inp ∈ inputsIn (frameLength (commandKind i)) t, inp.rst = false ∧ inp.outReady = true) :
    ∃ u, runFor (frameLength (commandKind i)) t = .next u ∧ u.phase = .idle ∧ u.sent = s.sent ++ commandFrame i
      ∧ acceptedIn (frameLength (commandKind i)) t = [] := by
  have hready : (inputsIn (frameLength (commandKind i)) t).countP (·.outReady) = frameLength (commandKind i) := by
    rw [List.countP_eq_length.2 fun inp hinp => (h inp hinp).2, length_inputsIn]
  obtain ⟨j, hj, u, hu, hidle, hsent⟩ := exists_frame_sent_of_ready he ht (fun inp hinp => (h inp hinp).1) hready.ge
  have htransfers : transfersIn j t = frameLength (commandKind i) := by
    have hlen := runFor_length_sent hu
    rw [step_length_sent ht, he, hsent, List.length_append, length_commandFrame] at hlen
    simpa using hlen.symm
  have hbound := length_acceptedIn_add_transfersIn_le j t
  obtain rfl : j = frameLength (commandKind i) := by omega
  exact ⟨u, hu, hidle, hsent, List.length_eq_zero_iff.1 (by omega)⟩

/-- Settles O45: a step for each acceptance and one for each byte of whole frames; with a sink always ready no other. -/
theorem frameTakesAtLeastLengthPlusOneSteps : Obligations.FrameTakesAtLeastLengthPlusOneSteps := by
  refine ⟨fun k s t hp hr h hp' => ?_, fun s i he h => ?_⟩
  · have htransfers := transfersIn_of_idle_to_idle hp hr h hp'
    have hsteps := length_acceptedIn_add_transfersIn_le k s
    rw [List.sum_map_add, ← htransfers, List.map_const', List.sum_replicate, smul_eq_mul, Nat.mul_one]
    omega
  · obtain ⟨t, ht⟩ := step_next s
    rw [inputsIn_succ ht, List.forall_mem_cons] at h
    obtain ⟨u, hu, hidle, hsent, hnone⟩ := runFor_of_all_ready he ht fun inp hinp =>
      ⟨(h.2 inp hinp).1, (h.2 inp hinp).2.2⟩
    exact ⟨u, (runFor_succ ht).trans hu, hidle, hsent, by rw [acceptedIn_succ ht, he, hnone]; rfl⟩

end Sys2Proof.Machine
